-- ==== Sys2Proof/Word.lean ====
section
/-! DEFINITION. The words and bytes of the VAS block, the one constant BLOCK_SIZE, and the shape of a byte memory. -/

namespace Sys2Proof

/-- A byte: the only data width of the three address spaces (20_memory.md R50, R60). -/
abbrev Byte := BitVec 8

/-- A 32-bit word: a virtual address (R81), a device command word (R83), a length, a parameter input of DCE (R110)
or a device status (R203). -/
abbrev Word := BitVec 32

/-- BLOCK_SIZE, bytes per block (00_scope.md R8, 92 D1). -/
def blockSize : Nat := 256

/-- The contents of one block as the device moves it: exactly BLOCK_SIZE bytes (20_memory.md R60). -/
abbrev BlockData := Vector Byte 256

/-- A byte memory: pairs of an index and the byte it holds, indices strictly rising (`memWf`). An index that is not
listed holds no value in BB (10_state.md R38, 93 U14; log 4), and in HB a byte the host has and the state does not know
(log 6). -/
abbrev Memory := List Host.Cell

end Sys2Proof
end

