-- ==== Sys2Proof/Config.lean ====
section
/-! DEFINITION. What is fixed before reset: the parameters of 00_scope.md R8, the reference configurations of R9, the
shape of what crosses the Submit port (44_device_primitive.md R200), and the free values of the environment. -/

namespace Sys2Proof

/-- The seven operation kinds, in the source's order (30_encoding.md R85, 40_command_encoder.md R110). -/
inductive OpKind where
  | mount | unmount | formatDrum | seekDrum | seekBlock | diskRead | diskWrite
  deriving DecidableEq, Repr

/-- The kinds in the order of R85. -/
def OpKind.all : List OpKind :=
  [.mount, .unmount, .formatDrum, .seekDrum, .seekBlock, .diskRead, .diskWrite]

/-- OPC, the OPEN parameter: a 6-bit code for each kind (R8, R85, 92 D5). -/
structure OpcMap where
  mount : BitVec 6
  unmount : BitVec 6
  formatDrum : BitVec 6
  seekDrum : BitVec 6
  seekBlock : BitVec 6
  diskRead : BitVec 6
  diskWrite : BitVec 6
  deriving DecidableEq, Repr

/-- OPC(kind). -/
def OpcMap.code (m : OpcMap) : OpKind → BitVec 6
  | .mount => m.mount
  | .unmount => m.unmount
  | .formatDrum => m.formatDrum
  | .seekDrum => m.seekDrum
  | .seekBlock => m.seekBlock
  | .diskRead => m.diskRead
  | .diskWrite => m.diskWrite

/-- OPC is injective: the seven codes differ pairwise (R8, R85). -/
abbrev OpcMap.Injective (m : OpcMap) : Prop := (OpKind.all.map m.code).Nodup

/-- The default OPC: the position of the kind in the source's list (R85, 92 D5). -/
def OpcMap.default : OpcMap :=
  { mount := 0, unmount := 1, formatDrum := 2, seekDrum := 3, seekBlock := 4, diskRead := 5, diskWrite := 6 }

/-- FIRST_TEST: how BSEQ tells the first iteration of a call (R8, 92 D9, 93 U3). -/
inductive FirstTest where
  | flag
  | compare
  deriving DecidableEq, Repr

/-- The parameters of R8 that the model keeps as arguments. The first three are OPEN; the last three are fixed in the
spec (`Config.AsSpecified`) and kept because 93 U2, U3 and U4 treat them as parameters. -/
structure Config where
  /-- MAX_DRUM_COUNT: a drum `d` is valid iff `d < maxDrumCount`. -/
  maxDrumCount : Nat
  /-- MAX_BLOCK_ID: a block `b` is valid iff `b <= maxBlockId`. -/
  maxBlockId : Nat
  /-- OPC. -/
  opc : OpcMap
  /-- ROLLOVER_THRESHOLD, fixed at BLOCK_SIZE (D4; U4). -/
  rolloverThreshold : Nat
  /-- CHECK_STATUS_IN_LOOP, fixed false (D8; U2). -/
  checkStatusInLoop : Bool
  /-- FIRST_TEST, fixed `flag` (D9; U3). -/
  firstTest : FirstTest
  deriving DecidableEq, Repr

/-- The constraints R8 puts on the OPEN parameters. -/
abbrev Config.InBounds (c : Config) : Prop :=
  1 ≤ c.maxDrumCount ∧ c.maxDrumCount ≤ 65536 ∧ c.maxBlockId ≤ 2 ^ 22 - 2 ∧ c.opc.Injective

/-- The fixed parameters have the values this hardware takes (R8). -/
abbrev Config.AsSpecified (c : Config) : Prop :=
  c.rolloverThreshold = blockSize ∧ c.checkStatusInLoop = false ∧ c.firstTest = .flag

/-- A configuration of this hardware: every parameter as R8 says. -/
abbrev Config.Valid (c : Config) : Prop := c.InBounds ∧ c.AsSpecified

/-- A configuration with the fixed parameters as specified and the default OPC. -/
def Config.ofBounds (maxDrumCount maxBlockId : Nat) : Config :=
  { maxDrumCount, maxBlockId, opc := .default, rolloverThreshold := blockSize,
    checkStatusInLoop := false, firstTest := .flag }

/-- CFG-A of R9. -/
def Config.cfgA : Config := .ofBounds 16 255
/-- CFG-B of R9: block value 256 passes validation, so rollover fires. -/
def Config.cfgB : Config := .ofBounds 4 256
/-- CFG-C of R9. -/
def Config.cfgC : Config := .ofBounds 16 127
/-- CFG-E of R9: rollover out of drum 15 does not fit ParamA. -/
def Config.cfgE : Config := .ofBounds 16 256

/-- What the device answers to one Submit: the status (R203) and, where a buffer accompanied the word, the Block
Buffer's contents after the call (R200). -/
structure Answer where
  status : Word
  buffer : BlockData
  deriving DecidableEq, Repr, Inhabited

/-- One exchange at the Submit port: the word and, for DiskRead and DiskWrite, the Block Buffer handed over as the block
holds it; the status and the buffer handed back (R200, R202). The list of these is the spec's command trace
(00_scope.md R15, R209). -/
structure Exchange where
  word : Word
  sent : Option Memory
  status : Word
  returned : Option BlockData
  deriving DecidableEq, Repr

/-- FREE VALUE. What the device answers to a command after a history of exchanges, where the state lists no coming
answer: any device that meets the interface (R207; 93 U5, U11, U12, U13, U16). No body: nothing can be proved of it. -/
opaque Config.deviceAnswer (history : List Exchange) (word : Word) (sent : Option Memory) : Answer

/-- FREE VALUE. What a byte of the caller's buffer holds that the host owns but the state does not list: by the contents
the buffer came with (`State.hbFill`) and the index (10_state.md R40; log 6). No body: nothing can be proved of it. -/
opaque Config.hostByte (fill index : Nat) : Byte

end Sys2Proof
end

