-- ==== Sys2Proof/Syntax.lean ====
section
/-! DEFINITION. The sixteen operations of spec/opcode_table.json, one constructor each, and the requests by which they
are presented to the block. -/

namespace Sys2Proof

/-- The operations of the VAS block (00_scope.md R2). Parameters of device commands are the 32-bit inputs of DCE
(40_command_encoder.md R110). -/
inductive Instr where
  /-- Mount, R114. -/
  | cmdMount
  /-- Unmount, R115. -/
  | cmdUnmount
  /-- FormatDrum(drum, block), R116. -/
  | cmdFormatDrum (drum block : Word)
  /-- SeekDrum(drum), R117. -/
  | cmdSeekDrum (drum : Word)
  /-- SeekBlock(block), R118. -/
  | cmdSeekBlock (block : Word)
  /-- DiskRead(drum, block), R119. -/
  | cmdDiskRead (drum block : Word)
  /-- DiskWrite(drum, block), R120. -/
  | cmdDiskWrite (drum block : Word)
  /-- MOUNT, R141. -/
  | hostMount
  /-- UNMOUNT, R144. -/
  | hostUnmount
  /-- READ(address, length), R151. -/
  | hostRead (address length : Word)
  /-- WRITE(address, length), R152. -/
  | hostWrite (address length : Word)
  /-- DRUM_OF(address), R131. -/
  | drumOf (address : Word)
  /-- BLOCK_OF(address), R132. -/
  | blockOf (address : Word)
  /-- OFFSET_OF(address), R133. -/
  | offsetOf (address : Word)
  /-- DECOMPOSE(address), R134. -/
  | decompose (address : Word)
  /-- ENCODE(kind, a, b), R111. -/
  | encode (kind : OpKind) (a b : Word)
  deriving DecidableEq, Repr

/-- The four functions of ADEC (41_address_decomposer.md R131 to R134). Format VA carries no selector, so the function
is chosen by which one is asked for, not by the word. -/
inductive AdecFunction where
  | drumOf | blockOf | offsetOf | decompose
  deriving DecidableEq, Repr

/-- One request, as the bits at the port it is presented to (30_encoding.md R80). -/
inductive Request where
  /-- A host request record, format HREQ (R92). -/
  | host (hop : BitVec 2) (address length : Word)
  /-- A device command word, format DC (R83), to be handed to the device. -/
  | command (word : Word)
  /-- An address at the input of ADEC, format VA (R81, R130). -/
  | adec (function : AdecFunction) (address : Word)
  /-- The three inputs of DCE (R110), the kind given by its OpCode. -/
  | dce (kind : BitVec 6) (a b : Word)
  deriving DecidableEq, Repr

end Sys2Proof
end

