-- ==== Sys2Proof/WellFormed.lean ====
section
/-! DEFINITION. Which operands an operation's encoding admits. -/

namespace Sys2Proof

/-- A value that fits ParamA, 4 bits (30_encoding.md R83, R88). -/
def fitsParamA (a : Word) : Bool := a.toNat < 2 ^ 4

/-- A value that fits ParamB, 22 bits (R83, R88). -/
def fitsParamB (b : Word) : Bool := b.toNat < 2 ^ 22

/-- The operands for which the operation has an encoding: a device command's parameters fit their fields (R88, R113).
Host operations take any address and length (R58); every word is an address (R82); ENCODE takes any two 32-bit inputs
(R110), and faults on some of them (R113). -/
def Instr.wellFormed : Instr → Bool
  | .cmdMount => true
  | .cmdUnmount => true
  | .cmdFormatDrum d b => fitsParamA d && fitsParamB b
  | .cmdSeekDrum d => fitsParamA d
  | .cmdSeekBlock b => fitsParamB b
  | .cmdDiskRead d b => fitsParamA d && fitsParamB b
  | .cmdDiskWrite d b => fitsParamA d && fitsParamB b
  | .hostMount => true
  | .hostUnmount => true
  | .hostRead _ _ => true
  | .hostWrite _ _ => true
  | .drumOf _ => true
  | .blockOf _ => true
  | .offsetOf _ => true
  | .decompose _ => true
  | .encode _ _ _ => true

end Sys2Proof
end

