-- ==== Sys2Proof/Decode.lean ====
section
/-! DEFINITION. The word formats of 30_encoding.md: the fields of a command word, decoding a request, rejecting by name,
and after it the encoder. -/

namespace Sys2Proof

/-- OpCode, bits 31 to 26 of a command word (R83, R84, R91). -/
def opCodeOf (w : Word) : BitVec 6 := w.extractLsb' 26 6

/-- ParamA, bits 25 to 22 (R83, R84, R91). -/
def paramAOf (w : Word) : BitVec 4 := w.extractLsb' 22 4

/-- ParamB, bits 21 to 0 (R83, R84, R91). -/
def paramBOf (w : Word) : BitVec 22 := w.extractLsb' 0 22

/-- OPC inverse: the kind a code stands for, none for a reserved code (R89, R91). -/
def kindOfCode (m : OpcMap) (c : BitVec 6) : Option OpKind :=
  OpKind.all.find? fun k => m.code k == c

/-- DecodeCmd (R91): the kind and the two parameters of a command word, none where the OpCode is reserved. -/
def decodeCmd (m : OpcMap) (w : Word) : Option (OpKind × BitVec 4 × BitVec 22) :=
  (kindOfCode m (opCodeOf w)).map fun k => (k, paramAOf w, paramBOf w)

/-- Why a request is no operation. -/
inductive DecodeError where
  /-- The OpCode is one of the 57 reserved values (R89). -/
  | reservedOpCode (code : BitVec 6)
  /-- A field that R87 sets to zero is not zero; the meaning of such a word is in no source (R90). -/
  | unusedFieldNotZero (kind : OpKind)
  deriving DecidableEq, Repr

/-- What the decoder answers. -/
inductive Decoded where
  | operation (i : Instr)
  | rejected (e : DecodeError)
  deriving DecidableEq, Repr

/-- The operation a kind and its fields name; a field the kind does not use must be zero (R86, R87, R90). -/
def commandOfFields (k : OpKind) (a : BitVec 4) (b : BitVec 22) : Decoded :=
  match k with
  | .mount => if a = 0 ∧ b = 0 then .operation .cmdMount else .rejected (.unusedFieldNotZero .mount)
  | .unmount => if a = 0 ∧ b = 0 then .operation .cmdUnmount else .rejected (.unusedFieldNotZero .unmount)
  | .formatDrum => .operation (.cmdFormatDrum (a.setWidth 32) (b.setWidth 32))
  | .seekDrum => if b = 0 then .operation (.cmdSeekDrum (a.setWidth 32)) else .rejected (.unusedFieldNotZero .seekDrum)
  | .seekBlock => if a = 0 then .operation (.cmdSeekBlock (b.setWidth 32)) else .rejected (.unusedFieldNotZero .seekBlock)
  | .diskRead => .operation (.cmdDiskRead (a.setWidth 32) (b.setWidth 32))
  | .diskWrite => .operation (.cmdDiskWrite (a.setWidth 32) (b.setWidth 32))

/-- Decoding a device command word (R83, R86, R91). -/
def decodeCommand (m : OpcMap) (w : Word) : Decoded :=
  match decodeCmd m w with
  | none => .rejected (.reservedOpCode (opCodeOf w))
  | some (k, a, b) => commandOfFields k a b

/-- Decoding a host request record (R92); address and length are ignored for MOUNT and UNMOUNT. -/
def decodeHost (hop : BitVec 2) (address length : Word) : Instr :=
  if hop = 0 then .hostMount
  else if hop = 1 then .hostUnmount
  else if hop = 2 then .hostRead address length
  else .hostWrite address length

/-- Decoding an address at ADEC: every word is well-formed (R82). -/
def decodeAdec (f : AdecFunction) (address : Word) : Instr :=
  match f with
  | .drumOf => .drumOf address
  | .blockOf => .blockOf address
  | .offsetOf => .offsetOf address
  | .decompose => .decompose address

/-- Decoding a request, total: an operation, or a rejection by name. -/
def decode (m : OpcMap) : Request → Decoded
  | .host hop address length => .operation (decodeHost hop address length)
  | .command w => decodeCommand m w
  | .adec f address => .operation (decodeAdec f address)
  | .dce c a b =>
    match kindOfCode m c with
    | none => .rejected (.reservedOpCode c)
    | some k => .operation (.encode k a b)

/-- ENCODE (40_command_encoder.md R111): the command word, none where a parameter does not fit its field (R113). -/
def encodeWord (m : OpcMap) (k : OpKind) (a b : Word) : Option Word :=
  if fitsParamA a && fitsParamB b then
    some (((m.code k).setWidth 32 <<< 26) ||| (a <<< 22) ||| b)
  else none

/-- The encoder: the request that presents an operation, none where the operands do not fit (R83 to R88, R92). Fields a
command does not use are zero (R87), and so are address and length of MOUNT and UNMOUNT. -/
def encode (m : OpcMap) : Instr → Option Request
  | .cmdMount => (encodeWord m .mount 0 0).map .command
  | .cmdUnmount => (encodeWord m .unmount 0 0).map .command
  | .cmdFormatDrum d b => (encodeWord m .formatDrum d b).map .command
  | .cmdSeekDrum d => (encodeWord m .seekDrum d 0).map .command
  | .cmdSeekBlock b => (encodeWord m .seekBlock 0 b).map .command
  | .cmdDiskRead d b => (encodeWord m .diskRead d b).map .command
  | .cmdDiskWrite d b => (encodeWord m .diskWrite d b).map .command
  | .hostMount => some (.host 0 0 0)
  | .hostUnmount => some (.host 1 0 0)
  | .hostRead a n => some (.host 2 a n)
  | .hostWrite a n => some (.host 3 a n)
  | .drumOf a => some (.adec .drumOf a)
  | .blockOf a => some (.adec .blockOf a)
  | .offsetOf a => some (.adec .offsetOf a)
  | .decompose a => some (.adec .decompose a)
  | .encode k a b => some (.dce (m.code k) a b)

/-- The request that a row's bits stand for, numbered as spec/opcode_table.json numbers them: rows of one byte are host
requests (2 bits of `hop`, R92; address and length zero), rows of four bytes are device command words (R83). The five
pure functions have no code in their words (R82), so no word of theirs can be told from a command word. -/
def tableRequest (nbits w : Nat) : Option Request :=
  if nbits = 8 then
    if w < 4 then some (.host (BitVec.ofNat 2 w) 0 0) else none
  else if nbits = 32 then
    if w < 2 ^ 32 then some (.command (BitVec.ofNat 32 w)) else none
  else none

/-- The operation the decoder reads from a row's bits, under the default OPC the table is written in (R85). -/
def decodeTableWord (nbits w : Nat) : Option Instr :=
  match tableRequest nbits w with
  | none => none
  | some r =>
    match decode .default r with
    | .operation i => some i
    | .rejected _ => none

end Sys2Proof
end

