-- ==== Sys2Proof/Machine/State.lean ====
section
/-! DEFINITION. The state of the machine (10_state.md), the reasons a step can stop, and the state after reset. -/

namespace Sys2Proof.Machine

/-- The values of the `phase` register (R33). -/
inductive Phase where
  | idle | lTest | validate | first | seekDrum | seekBlock | roll | dread | inc | copy | wbSeek | wbWrite | iterEnd
  | mMount | mFormat | uUnmount | fault
  deriving DecidableEq, Repr

/-- Which host operation is in flight, the register `op` (R22, R31); the codes are those of `hop` (R92). -/
inductive HostOp where
  | mount | unmount | read | write
  deriving DecidableEq, Repr

/-- The 2-bit code of a host operation (R92). -/
def HostOp.code : HostOp → BitVec 2
  | .mount => 0
  | .unmount => 1
  | .read => 2
  | .write => 3

/-- The values of the `result` register, ERR of R8; the codes 5 to 7 are never written (R34, R225). -/
inductive ResultCode where
  | ok | mountFailure | unmountFailure | addressOutOfRange | deviceCommandFailure
  deriving DecidableEq, Repr

/-- The 3-bit code of a result (R34). -/
def ResultCode.code : ResultCode → BitVec 3
  | .ok => 0
  | .mountFailure => 1
  | .unmountFailure => 2
  | .addressOutOfRange => 3
  | .deviceCommandFailure => 4

/-- The outputs of ADEC (41_address_decomposer.md R130). -/
structure AdecLines where
  drum : BitVec 16
  block : BitVec 8
  offset : BitVec 8
  deriving DecidableEq, Repr

/-- The machine. The registers are those of R20 and R22; `hb` and `hbCapacity` are the host's (R40, R154); `cfg` is
configuration and never written (R20); `hbFill` and the last five fields are the model's own (log 6, 7, 9, 10, 12). -/
structure State where
  /-- The parameters of R8, fixed before reset. -/
  cfg : Config
  /-- `phase` (R32). -/
  phase : Phase
  /-- `op` (R31). -/
  op : HostOp
  /-- `drum` (R23). -/
  drum : BitVec 17
  /-- `block` (R24). -/
  block : BitVec 22
  /-- `byte_offset` (R25). -/
  byteOffset : BitVec 8
  /-- `first_block` (R26). -/
  firstBlock : BitVec 8
  /-- `first` (R27). -/
  first : Bool
  /-- `cursor` (R28). -/
  cursor : BitVec 9
  /-- `transferred` (R29). -/
  transferred : BitVec 32
  /-- `length` (R30). -/
  length : BitVec 32
  /-- `result` (R34). -/
  result : ResultCode
  /-- `fault` (R35). -/
  fault : Bool
  /-- The Block Buffer BB (R37). -/
  bb : Memory
  /-- The caller's buffer HB (R40). -/
  hb : Memory
  /-- MODEL: which contents the bytes of HB have that `hb` does not list (log 6). -/
  hbFill : Nat
  /-- The capacity of the caller's buffer (R154). -/
  hbCapacity : Nat
  /-- MODEL: the requests the host will present, oldest first (R92). -/
  requests : List Request
  /-- MODEL: the device's coming answers, oldest first (R207). -/
  answers : List Answer
  /-- MODEL: every exchange at the Submit port since reset, oldest first (R15, R209). -/
  trace : List Exchange
  /-- MODEL: the output lines of ADEC as a pure function last drove them (R130). -/
  adec : AdecLines
  /-- MODEL: the output word of DCE as ENCODE last drove it (R110). -/
  dceWord : Word
  deriving DecidableEq, Repr

/-- The reasons the machine stops with a fault. -/
inductive Fault where
  /-- A step, a host operation or a device command in the FAULT phase, which EncodeOverflow entered and only reset
  leaves: "From `FAULT` no step is enabled" (60_exceptions.md R229). Raised by `step` and by the meanings of host
  operations and device commands. The spec's own stop; safe. -/
  | halted
  /-- A read of a byte of BB that holds no value, where 93 U14 asks for a `fault` (10_state.md R38; log 4). Raised by the
  copy step of READ, from no state that meets `Inv`. Safe: the model stops where the hardware has some byte. -/
  | unwrittenByte (index : Nat)
  deriving DecidableEq, Repr

/-- The reasons the machine gives a situation no meaning. -/
inductive Refusal where
  /-- An operation that has no meaning in the model yet. Raised by no arm of this model. Safe. -/
  | notModelled (mnemonic : String)
  /-- A host operation while `phase` is not IDLE: "a request at any other time is not accepted"
  (43_io_sequencer.md R155, 93 U8). Raised by the four host operations. Safe. -/
  | notAccepted
  /-- READ or WRITE with a caller's buffer shorter than `length` (R154, 93 U7). Raised by READ and WRITE. Safe. -/
  | bufferTooShort
  /-- A request that the decoder rejects: a reserved OpCode or a non-zero unused field (R89, R90, 93 U6, U17).
  Raised by `step`. Safe. -/
  | undecodable (e : DecodeError)
  deriving DecidableEq, Repr

/-- The machine right after reset (10_state.md R43, 70_reset_and_hazards.md R250): `phase`, `result`, `fault` and `first`
as the spec says; BB holds no value; every other register 0 (log 3); CFG-A (log 1); nothing requested, nothing
answered, nothing exchanged, no byte of HB known (log 6). -/
def State.reset : State :=
  { cfg := .cfgA
    phase := .idle
    op := .mount
    drum := 0
    block := 0
    byteOffset := 0
    firstBlock := 0
    first := false
    cursor := 0
    transferred := 0
    length := 0
    result := .ok
    fault := false
    bb := []
    hb := []
    hbFill := 0
    hbCapacity := 2 ^ 32
    requests := []
    answers := []
    trace := []
    adec := ⟨0, 0, 0⟩
    dceWord := 0 }

end Sys2Proof.Machine
end

