-- ==== Sys2Proof/Machine/Flags.lean ====
section
/-! DEFINITION. The conditions the block tests. The block stores one condition flag, `first` (10_state.md R36); the rest
are comparisons of registers with each other and with parameters, all unsigned (43_io_sequencer.md R191), and the sign of
a device status (44_device_primitive.md R203). -/

namespace Sys2Proof.Machine

/-- The status is negative: bit 31 is 1 (R203). -/
def statusFailed (status : Word) : Bool := status.msb

/-- `transferred < length` (R160, R169). -/
def moreToMove (s : State) : Bool := s.transferred.toNat < s.length.toNat

/-- `cursor < BLOCK_SIZE` (R169). -/
def roomInBlock (s : State) : Bool := s.cursor.toNat < blockSize

/-- IN_RANGE(drum, block) (R65, R161): the drum bound is exclusive, the block bound inclusive. -/
def inRange (s : State) : Bool := s.drum.toNat < s.cfg.maxDrumCount && s.block.toNat ≤ s.cfg.maxBlockId

/-- The first-iteration test (R162): the flag `first`, or in the variant of 93 U3 the comparison with `first_block`. -/
def isFirstIteration (s : State) : Bool :=
  match s.cfg.firstTest with
  | .flag => s.first
  | .compare => s.block == s.firstBlock.setWidth 22

/-- The rollover test (R166): `block >= ROLLOVER_THRESHOLD`. -/
def rolloverDue (s : State) : Bool := s.cfg.rolloverThreshold ≤ s.block.toNat

/-- The block is in the FAULT phase, or its sticky `fault` flag is set: no step is enabled (R35, R229). -/
def isHalted (s : State) : Bool := s.fault || s.phase == .fault

end Sys2Proof.Machine
end

