-- ==== Sys2Proof/Machine/Operands.lean ====
section
/-! DEFINITION. Operand forms: the three fields of a virtual address (ADEC), and the sequencer's registers as they enter
the 32-bit parameter inputs of DCE. -/

namespace Sys2Proof.Machine

/-- DRUM_OF (41_address_decomposer.md R131): logical shift right by 16. -/
def drumOf (address : Word) : BitVec 16 := (address >>> 16).setWidth 16

/-- BLOCK_OF (R132): mask bits 15 to 8, then shift right by 8. -/
def blockOf (address : Word) : BitVec 8 := ((address &&& 0x0000FF00#32) >>> 8).setWidth 8

/-- OFFSET_OF (R133): mask bits 7 to 0. -/
def offsetOf (address : Word) : BitVec 8 := (address &&& 0x000000FF#32).setWidth 8

/-- DECOMPOSE (R134): the three outputs of ADEC together. -/
def decomposeAddress (address : Word) : AdecLines :=
  { drum := drumOf address, block := blockOf address, offset := offsetOf address }

/-- `drum` as an input of DCE (40_command_encoder.md R110, R88). -/
def drumParam (s : State) : Word := s.drum.setWidth 32

/-- `block` as an input of DCE (R110, R88). -/
def blockParam (s : State) : Word := s.block.setWidth 32

/-- `block - 1` as an input of DCE, the seek target of the write-back (R171). -/
def previousBlockParam (s : State) : Word := (s.block - 1).setWidth 32

end Sys2Proof.Machine
end

