-- ==== Sys2Proof/Machine/Ops.lean ====
section
/-! DEFINITION. The shared operations: bytes of BB and HB, taking an error and taking the fault EncodeOverflow, the
Submit port, and the updates the steps are made of. -/

namespace Sys2Proof.Machine

/-! ### Byte memories -/

/-- What an index that is not listed reads as: no value (10_state.md R38, 93 U14; log 4, and for HB log 6). -/
def memUnlisted : Option Byte := none

/-- The byte at an index of BB or HB: MemRead(space, index, 1) and `BB[i]` of 00_scope.md R13. -/
def memRead : Memory → Nat → Option Byte
  | [], _ => memUnlisted
  | (a, b) :: m, i => if a = i then some b else memRead m i

/-- The memory with one byte written: MemWrite(space, index, 1, v) and `BB[i] <- v` of R13. -/
def memWrite : Memory → Nat → Byte → Memory
  | [], i, v => [(i, v)]
  | (a, b) :: m, i, v =>
    if i < a then (i, v) :: (a, b) :: m
    else if i = a then (i, v) :: m
    else (a, b) :: memWrite m i v

/-- Every index of the list is at least `n`, and the indices strictly rise. -/
def memWfFrom : Nat → Memory → Bool
  | _, [] => true
  | n, (a, _) :: m => decide (n ≤ a) && memWfFrom (a + 1) m

/-- The canonical form: indices strictly rising. No entry can equal what an unlisted index reads as, which is no value. -/
def Memory.wf (m : Memory) : Bool := memWfFrom 0 m

/-- Consecutive bytes from index `n` on. -/
def memOfBytes : Nat → List Byte → Memory
  | _, [] => []
  | n, b :: bs => (n, b) :: memOfBytes (n + 1) bs

/-- The Block Buffer filled whole with what the device left in it (R167, R202). -/
def filledBuffer (d : BlockData) : Memory := memOfBytes 0 d.toList

/-- `MemRead(HB, i, 1)` (00_scope.md R13): the byte the state lists, else the free byte of a buffer whose contents the
state does not know (log 6). Every byte within the capacity is there to be read (43_io_sequencer.md R154, R169). -/
def hostByte (s : State) (i : Nat) : Byte :=
  match memRead s.hb i with
  | some v => v
  | none => Config.hostByte s.hbFill i

/-! ### Control transfer, errors and the fault -/

/-- `phase <- P` (00_scope.md R13). -/
def goto (p : Phase) (s : State) : State := { s with phase := p }

/-- The end of a host operation with an outcome: `result <- r; phase <- IDLE`. With an error kind it is `raise`
(60_exceptions.md R226): nothing else is written; with OK it is the return of R160, R141 and R144. -/
def endOperation (r : ResultCode) (s : State) : State := { s with result := r, phase := .idle }

/-- `fault EncodeOverflow` (R229): `fault <- 1; phase <- FAULT`; `result` is not written. There is no return from it. -/
def enterFault (s : State) : State := { s with fault := true, phase := .fault }

/-! ### The Submit port -/

/-- The device's answer to the next command: the first coming answer, else a free value (R207). -/
def nextAnswer (w : Word) (sent : Option Memory) (s : State) : Answer :=
  match s.answers with
  | a :: _ => a
  | [] => Config.deviceAnswer s.trace w sent

/-- The buffer handed back: none where none was handed over (R200). -/
def returnedBuffer (sent : Option Memory) (a : Answer) : Option BlockData :=
  match sent with
  | none => none
  | some _ => some a.buffer

/-- BB after a Submit: the contents the device left in the buffer that accompanied the command, else as before
(R200, R202; log 8). -/
def bufferAfter (returned : Option BlockData) (before : Memory) : Memory :=
  match returned with
  | none => before
  | some d => filledBuffer d

/-- `Submit(w, buf)` (44_device_primitive.md R200, R201): one exchange, recorded in the trace; the answer is used up; BB
is what the device left of it. The status is the one recorded in the exchange. -/
def submit (w : Word) (sent : Option Memory) (s : State) : State :=
  let a := nextAnswer w sent s
  { s with
    answers := s.answers.tail
    trace := s.trace ++ [{ word := w, sent := sent, status := a.status, returned := returnedBuffer sent a }]
    bb := bufferAfter (returnedBuffer sent a) s.bb }

/-- The device reports this command as failed: the status `submit` records for it is negative (R203). -/
def submitFailed (w : Word) (sent : Option Memory) (s : State) : Bool := statusFailed (nextAnswer w sent s).status

/-- The buffer rule of each kind (R202): BB accompanies DiskRead and DiskWrite and is absent otherwise. -/
def bufferArg (k : OpKind) (s : State) : Option Memory :=
  match k with
  | .diskRead => some s.bb
  | .diskWrite => some s.bb
  | .mount => none
  | .unmount => none
  | .formatDrum => none
  | .seekDrum => none
  | .seekBlock => none

/-- `Submit(ENCODE(kind, a, b), buf)` followed by what depends on the sign of the status: the fault EncodeOverflow and no
Submit where a parameter does not fit (R113, R229); else the exchange, then `good` or `bad`. -/
def issue (k : OpKind) (a b : Word) (s : State) (good bad : State → State) : State :=
  match encodeWord s.cfg.opc k a b with
  | none => enterFault s
  | some w =>
    if submitFailed w (bufferArg k s) s then bad (submit w (bufferArg k s) s)
    else good (submit w (bufferArg k s) s)

/-- `Submit(ENCODE(kind, a, b), buf)` with the status discarded: the fault EncodeOverflow and no Submit where a parameter
does not fit; else the exchange, then what follows it. -/
def issueThen (k : OpKind) (a b : Word) (s : State) (after : State → State) : State :=
  match encodeWord s.cfg.opc k a b with
  | none => enterFault s
  | some w => after (submit w (bufferArg k s) s)

/-- A command inside the transfer loop, then the next phase. The status is discarded (43_io_sequencer.md R175); in the
variant CHECK_STATUS_IN_LOOP = true of 93 U2 a negative status raises DeviceCommandFailure. -/
def issueInLoop (k : OpKind) (a b : Word) (next : Phase) (s : State) : State :=
  if s.cfg.checkStatusInLoop then issue k a b s (goto next) (endOperation .deviceCommandFailure)
  else issueThen k a b s (goto next)

/-- A device command as an operation of its own: ENCODE and one Submit, no effect on `phase` or `result`
(40_command_encoder.md R114 to R120; log 21). The model's choice: DiskRead and DiskWrite hand BB over as it stands, also
where bytes of it hold no value, as right after reset; what the device makes of those bytes is the device's (log 26). -/
def deviceCommand (k : OpKind) (a b : Word) (s : State) : Host.Outcome State Fault Refusal :=
  if isHalted s then .fault .halted else .next (issueThen k a b s id)

/-! ### Starting a host operation -/

/-- A request is accepted only when `phase = IDLE` and `fault = 0` (R155, R71). -/
def acceptRequest (s : State) (start : State → State) : Host.Outcome State Fault Refusal :=
  if isHalted s then .fault .halted
  else if s.phase = .idle then .next (start s)
  else .refused .notAccepted

/-- The start step of READ and WRITE (R155). BB begins the call holding no value (R38; log 5). `drum` is loaded with any
16-bit DRUM_OF before the range check, so until then it may exceed the bound of R10 (b): the model follows R155
(log 25). -/
def startTransfer (dir : HostOp) (address length : Word) (s : State) : State :=
  { s with
    op := dir
    drum := (drumOf address).setWidth 17
    block := (blockOf address).setWidth 22
    byteOffset := offsetOf address
    firstBlock := blockOf address
    first := true
    transferred := 0
    length := length
    bb := []
    phase := .lTest }

/-- READ or WRITE is accepted with a caller's buffer of capacity at least `length` (R154), and refused without. -/
def acceptTransfer (dir : HostOp) (address length : Word) (s : State) : Host.Outcome State Fault Refusal :=
  if isHalted s then .fault .halted
  else if s.phase = .idle then
    if length.toNat ≤ s.hbCapacity then .next (startTransfer dir address length s) else .refused .bufferTooShort
  else .refused .notAccepted

/-! ### Moving a byte -/

/-- `transferred <- transferred + 1; cursor <- cursor + 1` (R169). -/
def advance (s : State) : State := { s with transferred := s.transferred + 1, cursor := s.cursor + 1 }

/-- One byte moved and counted (R169): from BB to HB in READ, from HB to BB in WRITE. -/
def copyByte (s : State) : Host.Outcome State Fault Refusal :=
  match s.op with
  | .read =>
    match memRead s.bb s.cursor.toNat with
    | none => .fault (.unwrittenByte s.cursor.toNat)
    | some v => .next (advance { s with hb := memWrite s.hb s.transferred.toNat v })
  | .write => .next (advance { s with bb := memWrite s.bb s.cursor.toNat (hostByte s s.transferred.toNat) })
  | .mount => .next (advance s)
  | .unmount => .next (advance s)

end Sys2Proof.Machine
end

