-- ==== Sys2Proof/Machine/Adec.lean ====
section
/-! DEFINITION. The Address Decomposer (41_address_decomposer.md): the four pure functions. Each drives its output lines
and does nothing else; none can fail and none depends on the phase (R130). -/

namespace Sys2Proof.Machine

/-- DRUM_OF (R131). -/
def execDrumOf (address : Word) (s : State) : Host.Outcome State Fault Refusal :=
  .next { s with adec := { s.adec with drum := drumOf address } }

/-- BLOCK_OF (R132). -/
def execBlockOf (address : Word) (s : State) : Host.Outcome State Fault Refusal :=
  .next { s with adec := { s.adec with block := blockOf address } }

/-- OFFSET_OF (R133). -/
def execOffsetOf (address : Word) (s : State) : Host.Outcome State Fault Refusal :=
  .next { s with adec := { s.adec with offset := offsetOf address } }

/-- DECOMPOSE (R134). -/
def execDecompose (address : Word) (s : State) : Host.Outcome State Fault Refusal :=
  .next { s with adec := decomposeAddress address }

end Sys2Proof.Machine
end

