-- ==== Sys2Proof/Machine/Dce.lean ====
section
/-! DEFINITION. The Device Command Encoder (40_command_encoder.md): ENCODE, and the seven device commands, each one word
of ENCODE handed to the device once. -/

namespace Sys2Proof.Machine

/-- ENCODE (R111): the output word, or the fault EncodeOverflow and no word (R113). Submits nothing (R112). -/
def execEncode (k : OpKind) (a b : Word) (s : State) : Host.Outcome State Fault Refusal :=
  match encodeWord s.cfg.opc k a b with
  | none => .next (enterFault s)
  | some w => .next { s with dceWord := w }

/-- Mount (R114). -/
def execCmdMount (s : State) : Host.Outcome State Fault Refusal := deviceCommand .mount 0 0 s

/-- Unmount (R115). -/
def execCmdUnmount (s : State) : Host.Outcome State Fault Refusal := deviceCommand .unmount 0 0 s

/-- FormatDrum(drum, block) (R116). -/
def execCmdFormatDrum (drum block : Word) (s : State) : Host.Outcome State Fault Refusal :=
  deviceCommand .formatDrum drum block s

/-- SeekDrum(drum) (R117). -/
def execCmdSeekDrum (drum : Word) (s : State) : Host.Outcome State Fault Refusal := deviceCommand .seekDrum drum 0 s

/-- SeekBlock(block) (R118). -/
def execCmdSeekBlock (block : Word) (s : State) : Host.Outcome State Fault Refusal := deviceCommand .seekBlock 0 block s

/-- DiskRead(drum, block) (R119): the device fills BB. -/
def execCmdDiskRead (drum block : Word) (s : State) : Host.Outcome State Fault Refusal :=
  deviceCommand .diskRead drum block s

/-- DiskWrite(drum, block) (R120): the device consumes BB. -/
def execCmdDiskWrite (drum block : Word) (s : State) : Host.Outcome State Fault Refusal :=
  deviceCommand .diskWrite drum block s

end Sys2Proof.Machine
end

