-- ==== Sys2Proof/Machine/Lifecycle.lean ====
section
/-! DEFINITION. The Volume Lifecycle Manager (42_volume_lifecycle.md): the start steps of MOUNT and UNMOUNT, which are
the meanings of the two operations, and the steps of their phases. -/

namespace Sys2Proof.Machine

/-- MOUNT, its start step (R141): `op <- MOUNT; phase <- M_MOUNT`. -/
def execHostMount (s : State) : Host.Outcome State Fault Refusal :=
  acceptRequest s fun s => { s with op := .mount, phase := .mMount }

/-- UNMOUNT, its start step (R144): `op <- UNMOUNT; phase <- U_UNMOUNT`. -/
def execHostUnmount (s : State) : Host.Outcome State Fault Refusal :=
  acceptRequest s fun s => { s with op := .unmount, phase := .uUnmount }

/-- Phase M_MOUNT (R141, R142): Mount; a negative status ends MOUNT with MountFailure and no FormatDrum. -/
def stepMMount (s : State) : State :=
  issue .mount 0 0 s (goto .mFormat) (endOperation .mountFailure)

/-- Phase M_FORMAT (R143): FormatDrum(0, 0), whose status is not looked at. -/
def stepMFormat (s : State) : State :=
  issueThen .formatDrum 0 0 s (endOperation .ok)

/-- Phase U_UNMOUNT (R144): Unmount; a negative status ends UNMOUNT with UnmountFailure. -/
def stepUUnmount (s : State) : State :=
  issue .unmount 0 0 s (endOperation .ok) (endOperation .unmountFailure)

end Sys2Proof.Machine
end

