-- ==== Sys2Proof/Machine/Sequencer.lean ====
section
/-! DEFINITION. The Block-Spanning I/O sequencer (43_io_sequencer.md): the start steps of READ and WRITE, which are the
meanings of the two operations, and one step for each phase of the transfer. -/

namespace Sys2Proof.Machine

/-- READ, its start step (R151, R155). -/
def execHostRead (address length : Word) (s : State) : Host.Outcome State Fault Refusal :=
  acceptTransfer .read address length s

/-- WRITE, its start step (R152, R155). -/
def execHostWrite (address length : Word) (s : State) : Host.Outcome State Fault Refusal :=
  acceptTransfer .write address length s

/-- Phase L_TEST, the loop test (R160). -/
def stepLTest (s : State) : State :=
  if moreToMove s then goto .validate s else endOperation .ok s

/-- Phase VALIDATE, the range check (R161). -/
def stepValidate (s : State) : State :=
  if inRange s then goto .first s else endOperation .addressOutOfRange s

/-- `cursor <- zext_9(byte_offset)` (R162). -/
def cursorAtOffset (s : State) : State := { s with cursor := s.byteOffset.setWidth 9 }

/-- `cursor <- 0` (R162). -/
def cursorAtZero (s : State) : State := { s with cursor := 0 }

/-- Phase FIRST, the first-iteration test and the setting of `cursor` (R162). -/
def stepFirst (s : State) : State :=
  if isFirstIteration s then goto .seekDrum (cursorAtOffset s) else goto .roll (cursorAtZero s)

/-- Phase SEEK_DRUM (R163). -/
def stepSeekDrum (s : State) : State := issueInLoop .seekDrum (drumParam s) 0 .seekBlock s

/-- Phase SEEK_BLOCK (R164). -/
def stepSeekBlock (s : State) : State := issueInLoop .seekBlock 0 (blockParam s) .roll s

/-- `block <- 0; drum <- drum + 1` (R166). -/
def rollOver (s : State) : State := { s with block := 0, drum := s.drum + 1 }

/-- Phase ROLL (R166): on rollover, SeekDrum of the new drum, which is not range-checked (R186). -/
def stepRoll (s : State) : State :=
  if rolloverDue s then issueInLoop .seekDrum (drumParam (rollOver s)) 0 .dread (rollOver s) else goto .dread s

/-- Phase DREAD (R167): DiskRead into BB. -/
def stepDread (s : State) : State := issueInLoop .diskRead (drumParam s) (blockParam s) .inc s

/-- `block <- block + 1` (R168). -/
def nextBlock (s : State) : State := { s with block := s.block + 1 }

/-- Phase INC (R168). -/
def stepInc (s : State) : State := goto .copy (nextBlock s)

/-- Where COPY goes when the inner loop ends (R170). -/
def afterCopy (op : HostOp) : Phase := if op = .write then .wbSeek else .iterEnd

/-- Phase COPY: one byte (R169), or the end of the inner loop (R170). -/
def stepCopy (s : State) : Host.Outcome State Fault Refusal :=
  if moreToMove s && roomInBlock s then copyByte s else .next (goto (afterCopy s.op) s)

/-- Phase WB_SEEK (R171): SeekBlock(block - 1). -/
def stepWbSeek (s : State) : State := issueInLoop .seekBlock 0 (previousBlockParam s) .wbWrite s

/-- Phase WB_WRITE (R172): DiskWrite with the already incremented `block` (R187). -/
def stepWbWrite (s : State) : State := issueInLoop .diskWrite (drumParam s) (blockParam s) .iterEnd s

/-- `first <- 0` (R173). -/
def clearFirst (s : State) : State := { s with first := false }

/-- Phase ITER_END (R173). -/
def stepIterEnd (s : State) : State := goto .lTest (clearFirst s)

end Sys2Proof.Machine
end

