-- ==== Sys2Proof/Machine/Dispatch.lean ====
section
/-! DEFINITION. The meaning of each operation, one arm each. -/

namespace Sys2Proof.Machine

def exec (i : Instr) (s : State) : Host.Outcome State Fault Refusal :=
  match i with
  | .cmdMount => Sys2Proof.Machine.execCmdMount s
  | .cmdUnmount => Sys2Proof.Machine.execCmdUnmount s
  | .cmdFormatDrum drum block => Sys2Proof.Machine.execCmdFormatDrum drum block s
  | .cmdSeekDrum drum => Sys2Proof.Machine.execCmdSeekDrum drum s
  | .cmdSeekBlock block => Sys2Proof.Machine.execCmdSeekBlock block s
  | .cmdDiskRead drum block => Sys2Proof.Machine.execCmdDiskRead drum block s
  | .cmdDiskWrite drum block => Sys2Proof.Machine.execCmdDiskWrite drum block s
  | .hostMount => Sys2Proof.Machine.execHostMount s
  | .hostUnmount => Sys2Proof.Machine.execHostUnmount s
  | .hostRead address length => Sys2Proof.Machine.execHostRead address length s
  | .hostWrite address length => Sys2Proof.Machine.execHostWrite address length s
  | .drumOf address => Sys2Proof.Machine.execDrumOf address s
  | .blockOf address => Sys2Proof.Machine.execBlockOf address s
  | .offsetOf address => Sys2Proof.Machine.execOffsetOf address s
  | .decompose address => Sys2Proof.Machine.execDecompose address s
  | .encode kind a b => Sys2Proof.Machine.execEncode kind a b s

end Sys2Proof.Machine
end

