-- ==== Sys2Proof/Machine/Fetch.lean ====
section
/-! DEFINITION. Taking the next request (30_encoding.md R92), and one step of the block (00_scope.md R14), which `step`
calls. -/

namespace Sys2Proof.Machine

/-- The request at the head taken off the list, for the operation it presents. -/
def withoutRequest (s : State) : State := { s with requests := s.requests.tail }

/-- What the block does with a decoded request: run the operation, or refuse a word that is none (R89, R90). -/
def runDecoded (d : Decoded) (s : State) : Host.Outcome State Fault Refusal :=
  match d with
  | .operation i => exec i s
  | .rejected e => .refused (.undecodable e)

/-- A step in IDLE (R33): the next request is taken, decoded and run; with no request the block waits (R252). -/
def stepIdle (s : State) : Host.Outcome State Fault Refusal :=
  match s.requests with
  | [] => .next s
  | r :: _ => runDecoded (decode s.cfg.opc r) (withoutRequest s)

/-- The step of each phase (R33). -/
def phaseStep (s : State) : Host.Outcome State Fault Refusal :=
  match s.phase with
  | .idle => stepIdle s
  | .lTest => .next (stepLTest s)
  | .validate => .next (stepValidate s)
  | .first => .next (stepFirst s)
  | .seekDrum => .next (stepSeekDrum s)
  | .seekBlock => .next (stepSeekBlock s)
  | .roll => .next (stepRoll s)
  | .dread => .next (stepDread s)
  | .inc => .next (stepInc s)
  | .copy => stepCopy s
  | .wbSeek => .next (stepWbSeek s)
  | .wbWrite => .next (stepWbWrite s)
  | .iterEnd => .next (stepIterEnd s)
  | .mMount => .next (stepMMount s)
  | .mFormat => .next (stepMFormat s)
  | .uUnmount => .next (stepUUnmount s)
  | .fault => .fault .halted

/-- One step: none is enabled once the block has faulted (R229); else the step of the phase. -/
def blockStep (s : State) : Host.Outcome State Fault Refusal :=
  if isHalted s then .fault .halted else phaseStep s

/-- The state with a request presented so that the very next step takes it: the block idle and not faulted, the request
first in the list (log 17). -/
def presentNext (r : Request) (s : State) : State :=
  { s with phase := .idle, fault := false, requests := r :: s.requests }

end Sys2Proof.Machine
end

