-- ==== Sys2Proof/Machine/Step.lean ====
section
/-! DEFINITION. The step of the machine, and how a table row's bits are placed where the next step takes its operation. -/

namespace Sys2Proof.Machine

/-- One step of the block (00_scope.md R14). -/
def step (s : State) : Host.Outcome State Fault Refusal := blockStep s

/-- `s` with the operation a row's bits stand for presented as the next request; unchanged where the bits are no row's. -/
def State.withFetchWord (s : State) (nbits w : Nat) : State :=
  match tableRequest nbits w with
  | none => s
  | some r => presentNext r s

end Sys2Proof.Machine
end

