-- ==== Sys2Proof/Machine/Transfer.lean ====
section
/-! DEFINITION. READ and WRITE as one function: XFER of 43_io_sequencer.md R156, the reference the steps are read
against; nothing in `step` uses it. -/

namespace Sys2Proof.Machine

/-- How a part of a host operation leaves off: going on, or with the whole operation's outcome. -/
inductive Flow where
  | goesOn (s : State)
  | ends (o : Host.Outcome State Fault Refusal)

/-- One part after another. -/
def flowThen (f : Flow) (k : State → Flow) : Flow :=
  match f with
  | .goesOn s => k s
  | .ends o => .ends o

/-- A command of XFER: `Submit(ENCODE(kind, a, b), buf)`, status discarded (R156, R175). -/
def xferCommand (k : OpKind) (a b : Word) (s : State) : Flow :=
  match encodeWord s.cfg.opc k a b with
  | none => .ends (.next (enterFault s))
  | some w =>
    if s.cfg.checkStatusInLoop && submitFailed w (bufferArg k s) s then
      .ends (.next (endOperation .deviceCommandFailure (submit w (bufferArg k s) s)))
    else .goesOn (submit w (bufferArg k s) s)

/-- Step 2b of XFER: the first iteration's `cursor` and seeks. -/
def xferFirst (s : State) : Flow :=
  if isFirstIteration s then
    flowThen (xferCommand .seekDrum (drumParam s) 0 (cursorAtOffset s)) fun s =>
      xferCommand .seekBlock 0 (blockParam s) s
  else .goesOn (cursorAtZero s)

/-- Step 2c of XFER: rollover. -/
def xferRoll (s : State) : Flow :=
  if rolloverDue s then xferCommand .seekDrum (drumParam (rollOver s)) 0 (rollOver s) else .goesOn s

/-- Step 2f of XFER: the inner loop. No more than BLOCK_SIZE bytes fit a block, so the first argument bounds it. -/
def xferCopy : Nat → State → Flow
  | 0, s => .goesOn s
  | n + 1, s =>
    if moreToMove s && roomInBlock s then
      match copyByte s with
      | .next t => xferCopy n t
      | .fault f => .ends (.fault f)
      | .refused r => .ends (.refused r)
    else .goesOn s

/-- Step 2g of XFER: the write-back. -/
def xferWriteBack (s : State) : Flow :=
  if s.op = .write then
    flowThen (xferCommand .seekBlock 0 (previousBlockParam s) s) fun s =>
      xferCommand .diskWrite (drumParam s) (blockParam s) s
  else .goesOn s

/-- The loop body of XFER (R156, steps 2a to 2g). -/
def xferBlock (s : State) : Flow :=
  if inRange s then
    flowThen (xferFirst s) fun s =>
    flowThen (xferRoll s) fun s =>
    flowThen (xferCommand .diskRead (drumParam s) (blockParam s) s) fun s =>
    flowThen (xferCopy blockSize (nextBlock s)) fun s =>
    flowThen (xferWriteBack s) fun s =>
    .goesOn (clearFirst s)
  else .ends (.next (endOperation .addressOutOfRange s))

/-- The outer loop of XFER. Every iteration moves at least one byte (R170), so `length` iterations are enough. -/
def xferLoop : Nat → State → Host.Outcome State Fault Refusal
  | 0, s => .next (endOperation .ok s)
  | n + 1, s =>
    if moreToMove s then
      match xferBlock s with
      | .goesOn t => xferLoop n t
      | .ends o => o
    else .next (endOperation .ok s)

/-- XFER(dir, address, length) (R156). -/
def xfer (dir : HostOp) (address length : Word) (s : State) : Host.Outcome State Fault Refusal :=
  xferLoop length.toNat (startTransfer dir address length s)

end Sys2Proof.Machine
end

