-- ==== Sys2Proof/Machine/Witness.lean ====
section
/-! DEFINITION. The witness device RD of 92_eei_decisions.md D21: the spec's own test double, on which the vectors of
95_test_vectors.md have end states. It is not part of the machine (D21; log 19): `step` knows nothing of it. -/

namespace Sys2Proof.Machine

/-- The state of RD. A block that `store` does not list is all zero. -/
structure WitnessDevice where
  store : List ((Nat × Nat) × BlockData)
  positionDrum : Nat
  positionBlock : Nat
  mounted : Bool
  reject : List OpKind
  trace : List Word
  deriving DecidableEq, Repr

/-- RD as it starts, rejecting the kinds given. -/
def witnessInitial (reject : List OpKind) : WitnessDevice :=
  { store := [], positionDrum := 0, positionBlock := 0, mounted := false, reject, trace := [] }

/-- The stored bytes of a block of RD. -/
def witnessBlock (d : WitnessDevice) (drum block : Nat) : BlockData :=
  match d.store.find? fun e => e.1 == (drum, block) with
  | some e => e.2
  | none => Vector.replicate 256 0

/-- The bytes of a buffer as RD takes them. -/
def dataOfBuffer (m : Memory) : BlockData := Vector.ofFn fun i => (memRead m i.val).getD 0

/-- The buffer that accompanies a command, unchanged. -/
def dataOfSent (sent : Option Memory) : BlockData :=
  match sent with
  | none => Vector.replicate 256 0
  | some m => dataOfBuffer m

/-- The effect of a command RD accepts, with the buffer it leaves (the table of D21). -/
def witnessAccept (k : OpKind) (a b : Nat) (sent : Option Memory) (d : WitnessDevice) : BlockData × WitnessDevice :=
  match k with
  | .mount => (dataOfSent sent, { d with mounted := true })
  | .unmount => (dataOfSent sent, { d with mounted := false })
  | .formatDrum => (dataOfSent sent, { d with store := d.store.filter fun e => e.1.1 != a })
  | .seekDrum => (dataOfSent sent, { d with positionDrum := a, positionBlock := 0 })
  | .seekBlock => (dataOfSent sent, { d with positionBlock := b })
  | .diskRead =>
    (witnessBlock d d.positionDrum d.positionBlock, { d with positionBlock := d.positionBlock + 1 })
  | .diskWrite =>
    (dataOfSent sent,
      { d with
        store := ((d.positionDrum, d.positionBlock), dataOfSent sent) :: d.store
        positionBlock := d.positionBlock + 1 })

/-- Submit on RD (D21): a reserved or rejected kind gives status -1 and no change; any other status 0. -/
def witnessSubmit (m : OpcMap) (w : Word) (sent : Option Memory) (d : WitnessDevice) : Answer × WitnessDevice :=
  match decodeCmd m w with
  | none => ({ status := -1, buffer := dataOfSent sent }, { d with trace := d.trace ++ [w] })
  | some (k, a, b) =>
    if k ∈ d.reject then
      ({ status := -1, buffer := dataOfSent sent }, { d with trace := d.trace ++ [w] })
    else
      let r := witnessAccept k a.toNat b.toNat sent d
      ({ status := 0, buffer := r.1 }, { r.2 with trace := d.trace ++ [w] })

/-- The machine together with RD at its Submit port. -/
structure ClosedSystem where
  machine : State
  device : WitnessDevice
  deriving DecidableEq, Repr

/-- The exchange the next step adds to the trace, whatever the device answers: at most one (00_scope.md R14). -/
def nextExchange (s : State) : Option Exchange :=
  match step { s with answers := [{ status := 0, buffer := Vector.replicate 256 0 }] } with
  | .next t => (t.trace.drop s.trace.length).head?
  | .fault _ => none
  | .refused _ => none

/-- One step of the machine with RD answering the command it submits, if it submits one. -/
def closedStep (c : ClosedSystem) : Host.Outcome ClosedSystem Fault Refusal :=
  let answered : State × WitnessDevice :=
    match nextExchange c.machine with
    | none => (c.machine, c.device)
    | some e =>
      let r := witnessSubmit c.machine.cfg.opc e.word e.sent c.device
      ({ c.machine with answers := [r.1] }, r.2)
  match step answered.1 with
  | .next t => .next { machine := t, device := answered.2 }
  | .fault f => .fault f
  | .refused r => .refused r

/-- `n` steps of the closed system, or fewer if the machine is idle with nothing requested. -/
def closedRun : Nat → ClosedSystem → Host.Outcome ClosedSystem Fault Refusal
  | 0, c => .next c
  | n + 1, c =>
    if c.machine.phase = .idle ∧ c.machine.requests = [] then .next c
    else
      match closedStep c with
      | .next t => closedRun n t
      | .fault f => .fault f
      | .refused r => .refused r

end Sys2Proof.Machine
end

