-- ==== Sys2Proof/Safety.lean ====
section
/-! DEFINITION. The terms claims use: what the hardware keeps true in every state (`Inv`), the control-transfer relation
of the phases, and the named assumptions DA1 to DA6 about the device (44_device_primitive.md R206). -/

namespace Sys2Proof.Machine

/-- The block is idle and has not faulted: it accepts a host operation (R155). -/
abbrev Ready (s : State) : Prop := s.phase = .idle ∧ s.fault = false

/-- A step is enabled: the block has not faulted (R35, R229). -/
abbrev Running (s : State) : Prop := s.phase ≠ .fault ∧ s.fault = false

/-- The phases of READ and WRITE after the start step (R33). -/
def transferPhases : List Phase :=
  [.lTest, .validate, .first, .seekDrum, .seekBlock, .roll, .dread, .inc, .copy, .wbSeek, .wbWrite, .iterEnd]

/-- The phases reached only after a SeekDrum of the current drum was encoded. -/
def drumSoughtPhases : List Phase := [.seekBlock, .roll, .dread, .inc, .copy, .wbSeek, .wbWrite, .iterEnd]

/-- Every byte of BB holds a value. -/
def bufferFull (m : Memory) : Prop := ∀ i, i < blockSize → (memRead m i).isSome

/-- What every step keeps, in a configuration of this hardware: the memories in canonical form, the fault flag and the
FAULT phase together (R35), the bounds of the registers (R10, R28, R29; of `drum` log 25), the operation that fits the phase (R31, R33),
and, phase by phase, what the steps before it have established. -/
structure Inv (s : State) : Prop where
  configured : s.cfg.Valid
  bufferCanonical : Memory.wf s.bb = true
  hostCanonical : Memory.wf s.hb = true
  faultWithPhase : s.fault = true ↔ s.phase = .fault
  movedWithinLength : s.transferred.toNat ≤ s.length.toNat
  lengthWithinCapacity : s.length.toNat ≤ s.hbCapacity
  cursorInBuffer : s.cursor.toNat ≤ blockSize
  blockBound : s.block.toNat ≤ 256
  drumBound : s.drum.toNat ≤ 65536
  transferOp : s.phase ∈ transferPhases → s.op = .read ∨ s.op = .write
  writeBackOp : s.phase ∈ [Phase.wbSeek, .wbWrite] → s.op = .write
  mountOp : s.phase ∈ [Phase.mMount, .mFormat] → s.op = .mount
  unmountOp : s.phase = .uUnmount → s.op = .unmount
  moreLeft : s.phase ∈ [Phase.validate, .first, .seekDrum, .seekBlock, .roll, .dread, .inc] → moreToMove s = true
  rangeChecked : s.phase ∈ [Phase.first, .seekDrum, .seekBlock, .roll] → inRange s = true
  afterRoll : s.phase ∈ [Phase.dread, .inc, .copy, .wbSeek, .wbWrite, .iterEnd] → s.drum.toNat ≤ s.cfg.maxDrumCount
  readTarget : s.phase ∈ [Phase.dread, .inc] → s.block.toNat < 256 ∧ s.block.toNat ≤ s.cfg.maxBlockId
  pastTarget : s.phase ∈ [Phase.copy, .wbSeek, .wbWrite] → 1 ≤ s.block.toNat ∧ s.block.toNat ≤ s.cfg.maxBlockId + 1
  seekingFirst : s.phase ∈ [Phase.seekDrum, .seekBlock] → s.first = true
  drumSought : s.phase ∈ drumSoughtPhases → s.drum.toNat < 16
  laterIteration : s.phase ∈ transferPhases → s.first = false → s.drum.toNat < 16
  buffered : s.phase ∈ [Phase.inc, .copy, .wbSeek, .wbWrite] → bufferFull s.bb

/-- The successors of each phase (43_io_sequencer.md R190; for MOUNT and UNMOUNT R141 to R144). IDLE stays IDLE while no
request is pending, and while pure functions and single commands are run (log 10). -/
def phaseSuccessors : Phase → List Phase
  | .idle => [.idle, .lTest, .mMount, .uUnmount, .fault]
  | .lTest => [.validate, .idle]
  | .validate => [.first, .idle]
  | .first => [.seekDrum, .roll]
  | .seekDrum => [.seekBlock, .fault]
  | .seekBlock => [.roll]
  | .roll => [.dread, .fault]
  | .dread => [.inc, .fault]
  | .inc => [.copy]
  | .copy => [.copy, .wbSeek, .iterEnd]
  | .wbSeek => [.wbWrite]
  | .wbWrite => [.iterEnd, .fault]
  | .iterEnd => [.lTest]
  | .mMount => [.mFormat, .idle]
  | .mFormat => [.idle]
  | .uUnmount => [.idle]
  | .fault => []

/-- The volume state as the assumptions DA1 to DA6 speak of it (10_state.md R39): a seek position and stored blocks. -/
structure Volume where
  drum : Nat
  block : Nat
  store : Nat → Nat → BlockData

/-- A device that meets DA1 to DA6 of R206, at one exchange: what a successful command does to the position and to the
stored blocks. Of a failed command nothing is known (R208). A SeekDrum homes the block (DA5), a SeekBlock sets it
(DA1), DiskRead delivers the block at the position (DA2), DiskWrite stores the buffer there (DA4), both advance (DA3),
and stored bytes change only so (DA6). -/
def Volume.meets (m : OpcMap) (v : Volume) (e : Exchange) (v' : Volume) : Prop :=
  statusFailed e.status = false →
    match decodeCmd m e.word with
    | none => True
    | some (k, a, b) =>
      match k with
      | .mount => v'.store = v.store
      | .unmount => v'.store = v.store
      | .formatDrum => True
      | .seekDrum => v'.drum = a.toNat ∧ v'.block = 0 ∧ v'.store = v.store
      | .seekBlock => v'.drum = v.drum ∧ v'.block = b.toNat ∧ v'.store = v.store
      | .diskRead =>
        e.returned = some (v.store v.drum v.block) ∧ v'.drum = v.drum ∧ v'.block = v.block + 1 ∧ v'.store = v.store
      | .diskWrite =>
        (∀ data, e.sent = some (filledBuffer data) → v'.store v.drum v.block = data) ∧
          (∀ d b, (d, b) ≠ (v.drum, v.block) → v'.store d b = v.store d b) ∧
          v'.drum = v.drum ∧ v'.block = v.block + 1

/-- A run of exchanges with a device that meets DA1 to DA6, from one volume state to another. -/
def Volume.serves (m : OpcMap) : Volume → List Exchange → Volume → Prop
  | v, [], v' => v = v'
  | v, e :: es, v' => ∃ u, Volume.meets m v e u ∧ Volume.serves m u es v'

/-- Every command of the list was reported successful (R203). -/
def allSucceeded (es : List Exchange) : Prop := ∀ e ∈ es, statusFailed e.status = false

/-- RD's store and position as a volume state (92_eei_decisions.md D21). -/
def witnessVolume (d : WitnessDevice) : Volume :=
  { drum := d.positionDrum, block := d.positionBlock, store := witnessBlock d }

/-- The state after one exchange of a command that no buffer accompanies (R200 to R202). -/
def exchanged (w : Word) (s : State) : State :=
  { s with
    answers := s.answers.tail
    trace := s.trace ++ [{ word := w, sent := none, status := (nextAnswer w none s).status, returned := none }] }

/-- The state after one exchange of a command that BB accompanies: BB is what the device left of it. -/
def exchangedBuffer (w : Word) (s : State) : State :=
  { s with
    answers := s.answers.tail
    trace := s.trace ++
      [{ word := w, sent := some s.bb, status := (nextAnswer w (some s.bb) s).status,
         returned := some (nextAnswer w (some s.bb) s).buffer }]
    bb := filledBuffer (nextAnswer w (some s.bb) s).buffer }

/-- The state after EncodeOverflow (R229). -/
def overflowed (s : State) : State := { s with fault := true, phase := .fault }

/-- The three fields of a command word side by side: `OPC(kind)[5:0] ++ a[3:0] ++ b[21:0]` (R111). -/
def fieldsWord (code : BitVec 6) (a : BitVec 4) (b : BitVec 22) : Word := code ++ a ++ b

/-- Two exchanges alike in everything but the status. -/
def SameButStatus (e e' : Exchange) : Prop := e.word = e'.word ∧ e.sent = e'.sent ∧ e.returned = e'.returned

end Sys2Proof.Machine
end

