-- ==== Sys2Proof/Certificates/Slice0/Obligations.lean ====
section
/-! DEFINITION. The statements for the provers. A statement names the rules of spec/ it formalises; where a clause rests
on a choice of the model, its docstring names the log entry. -/

open Sys2Proof Sys2Proof.Machine

/-! ### Encoding -/

/-- Decode and encode agree: every well-formed operation has an encoding, under any injective OPC, and it decodes to the
operation. (Which port presents an operation is the model's choice, log 10.) -/
def Obligations.DecodeOfEncodeIsTheOperation : Prop :=
  ∀ (m : OpcMap) (i : Instr), m.Injective → i.wellFormed = true →
    ∃ r, encode m i = some r ∧ decode m r = .operation i

/-- R91: the three fields of a command word, the kind by OPC inverse or none where the code is reserved, and DecodeCmd
after ENCODE. -/
def Obligations.DecodeCmdIsInverseWiring : Prop :=
  ∀ m : OpcMap, m.Injective →
    (∀ (w : Word) (k : OpKind) (a : BitVec 4) (b : BitVec 22),
      decodeCmd m w = some (k, a, b) ↔
        (m.code k).toNat = w.toNat / 2 ^ 26 ∧ a.toNat = w.toNat / 2 ^ 22 % 2 ^ 4 ∧ b.toNat = w.toNat % 2 ^ 22) ∧
    (∀ w : Word, decodeCmd m w = none ↔ ∀ k, (m.code k).toNat ≠ w.toNat / 2 ^ 26) ∧
    (∀ (k : OpKind) (a b w : Word), encodeWord m k a b = some w →
      decodeCmd m w = some (k, a.setWidth 4, b.setWidth 22) ∧ a.toNat < 2 ^ 4 ∧ b.toNat < 2 ^ 22)

/-- R122: the fields of ENCODE's word are the code and the two parameters, on every input on which it is defined. -/
def Obligations.EncodeFieldsReadBack : Prop :=
  ∀ (m : OpcMap) (k : OpKind) (a b w : Word), encodeWord m k a b = some w →
    w.toNat / 2 ^ 26 = (m.code k).toNat ∧ w.toNat / 2 ^ 22 % 2 ^ 4 = a.toNat ∧ w.toNat % 2 ^ 22 = b.toNat

/-- R121: ENCODE is injective on its domain, and its image is exactly the words whose top six bits are an assigned
code. -/
def Obligations.EncodeInjectiveWithExactImage : Prop :=
  ∀ m : OpcMap, m.Injective →
    (∀ (k k' : OpKind) (a a' b b' w : Word), encodeWord m k a b = some w → encodeWord m k' a' b' = some w →
      k = k' ∧ a = a' ∧ b = b') ∧
    (∀ w : Word, (∃ k a b, encodeWord m k a b = some w) ↔ ∃ k, (m.code k).toNat = w.toNat / 2 ^ 26)

/-- Words of the spec's own tables and the operations they stand for (30_encoding.md R85, R92; 40 R117 to R120). -/
def Obligations.SpecWordsDecode : Prop :=
  decode .default (.command 0x00000000) = .operation .cmdMount ∧
  decode .default (.command 0x04000000) = .operation .cmdUnmount ∧
  decode .default (.command 0x08000000) = .operation (.cmdFormatDrum 0 0) ∧
  decode .default (.command 0x0D400000) = .operation (.cmdSeekDrum 5) ∧
  decode .default (.command 0x103FFFFF) = .operation (.cmdSeekBlock 0x3FFFFF) ∧
  decode .default (.command 0x14C00007) = .operation (.cmdDiskRead 3 7) ∧
  decode .default (.command 0x1BC00100) = .operation (.cmdDiskWrite 15 256) ∧
  decode .default (.command 0x1C000000) = .rejected (.reservedOpCode 7) ∧
  decode .default (.host 0 1 2) = .operation .hostMount ∧
  decode .default (.host 2 0x000102C8 57) = .operation (.hostRead 0x000102C8 57)

/-! ### The pure functions -/

/-- R131 to R133: DRUM_OF is the address shifted right by 16 (zeros enter), BLOCK_OF its bits 15 to 8, OFFSET_OF its bits
7 to 0, for every address. -/
def Obligations.AddressFieldsAreTheBits : Prop :=
  ∀ address : Word,
    (drumOf address).toNat = address.toNat / 2 ^ 16 ∧
    (blockOf address).toNat = address.toNat / 2 ^ 8 % 2 ^ 8 ∧
    (offsetOf address).toNat = address.toNat % 2 ^ 8

/-- R134: DECOMPOSE is the three functions together, and it is a bijection between words and triples. -/
def Obligations.DecomposeIsABijection : Prop :=
  (∀ address : Word, decomposeAddress address = ⟨drumOf address, blockOf address, offsetOf address⟩) ∧
  (∀ address : Word,
    (drumOf address).toNat * 2 ^ 16 + (blockOf address).toNat * 2 ^ 8 + (offsetOf address).toNat = address.toNat) ∧
  (∀ (d : BitVec 16) (b o : BitVec 8) (address : Word),
    address.toNat = d.toNat * 2 ^ 16 + b.toNat * 2 ^ 8 + o.toNat →
      drumOf address = d ∧ blockOf address = b ∧ offsetOf address = o)

/-- The four address functions complete in every state and on every address, with the values of R131 to R134; each
writes its output lines and nothing else. (That the lines are held in State is the model's choice, log 10.) -/
def Obligations.AddressFunctionsDriveTheirLines : Prop :=
  ∀ (address : Word) (s : State), ∃ (d : BitVec 16) (b o : BitVec 8),
    d.toNat = address.toNat / 2 ^ 16 ∧ b.toNat = address.toNat / 2 ^ 8 % 2 ^ 8 ∧ o.toNat = address.toNat % 2 ^ 8 ∧
    exec (.drumOf address) s = .next { s with adec := { s.adec with drum := d } } ∧
    exec (.blockOf address) s = .next { s with adec := { s.adec with block := b } } ∧
    exec (.offsetOf address) s = .next { s with adec := { s.adec with offset := o } } ∧
    exec (.decompose address) s = .next { s with adec := ⟨d, b, o⟩ }

/-- R137: stepping a field of the address by one steps the function's result by one. -/
def Obligations.DecomposerFieldsStepByOne : Prop :=
  ∀ a : Word,
    ((drumOf a).toNat < 0xFFFF → (drumOf (a + 0x10000)).toNat = (drumOf a).toNat + 1) ∧
    ((blockOf a).toNat < 0xFF → (blockOf (a + 0x100)).toNat = (blockOf a).toNat + 1) ∧
    ((offsetOf a).toNat < 0xFF → (offsetOf (a + 1)).toNat = (offsetOf a).toNat + 1)

/-- R111 and R113: ENCODE answers the three fields side by side where both parameters fit, and nothing but the output
word is written; where one does not fit it takes the fault EncodeOverflow, yields no word and submits nothing. (That the
output word is held in State is the model's choice, log 10.) -/
def Obligations.EncodePacksOrFaults : Prop :=
  ∀ (k : OpKind) (a b : Word) (s : State),
    (a.toNat < 16 ∧ b.toNat < 2 ^ 22 →
      exec (.encode k a b) s =
        .next { s with dceWord := fieldsWord (s.cfg.opc.code k) (a.setWidth 4) (b.setWidth 22) }) ∧
    (¬(a.toNat < 16 ∧ b.toNat < 2 ^ 22) → exec (.encode k a b) s = .next (overflowed s))

/-! ### Device commands -/

/-- R114 to R118: Mount, Unmount, FormatDrum, SeekDrum and SeekBlock each hand the device their word once, with no
buffer, and change nothing else, in every state in which the block has not faulted. (A command as an operation of its
own is the model's choice, log 21; so in the next three statements.) -/
def Obligations.CommandsWithoutBufferComplete : Prop :=
  ∀ (s : State) (d b : Word), Running s →
    exec .cmdMount s = .next (exchanged (fieldsWord s.cfg.opc.mount 0 0) s) ∧
    exec .cmdUnmount s = .next (exchanged (fieldsWord s.cfg.opc.unmount 0 0) s) ∧
    (d.toNat < 16 → b.toNat < 2 ^ 22 → exec (.cmdFormatDrum d b) s =
      .next (exchanged (fieldsWord s.cfg.opc.formatDrum (d.setWidth 4) (b.setWidth 22)) s)) ∧
    (d.toNat < 16 → exec (.cmdSeekDrum d) s =
      .next (exchanged (fieldsWord s.cfg.opc.seekDrum (d.setWidth 4) 0) s)) ∧
    (b.toNat < 2 ^ 22 → exec (.cmdSeekBlock b) s =
      .next (exchanged (fieldsWord s.cfg.opc.seekBlock 0 (b.setWidth 22)) s))

/-- R119: DiskRead hands the device its word with BB, and BB becomes the bytes the device delivers; nothing else
changes. (That it hands over a BB in which bytes hold no value is the model's choice, log 26.) -/
def Obligations.DiskReadFillsTheBuffer : Prop :=
  ∀ (s : State) (d b : Word), Running s → d.toNat < 16 → b.toNat < 2 ^ 22 →
    exec (.cmdDiskRead d b) s =
      .next (exchangedBuffer (fieldsWord s.cfg.opc.diskRead (d.setWidth 4) (b.setWidth 22)) s)

/-- R120: DiskWrite hands the device its word with the whole of BB. What BB holds afterwards is what the device left of
it, the model's reading of what R202 leaves open (log 8), and so is that it completes where bytes of BB hold no value
(log 26); nothing else changes. -/
def Obligations.DiskWriteHandsOverTheBuffer : Prop :=
  ∀ (s : State) (d b : Word), Running s → d.toNat < 16 → b.toNat < 2 ^ 22 →
    exec (.cmdDiskWrite d b) s =
      .next (exchangedBuffer (fieldsWord s.cfg.opc.diskWrite (d.setWidth 4) (b.setWidth 22)) s)

/-- R113, R116 to R120: a command whose parameter does not fit its field takes EncodeOverflow: nothing is handed to the
device, and only `fault` and `phase` change. -/
def Obligations.CommandOverflowTakesTheFault : Prop :=
  ∀ (s : State) (d b : Word), Running s →
    (16 ≤ d.toNat ∨ 2 ^ 22 ≤ b.toNat →
      exec (.cmdFormatDrum d b) s = .next (overflowed s) ∧
      exec (.cmdDiskRead d b) s = .next (overflowed s) ∧
      exec (.cmdDiskWrite d b) s = .next (overflowed s)) ∧
    (16 ≤ d.toNat → exec (.cmdSeekDrum d) s = .next (overflowed s)) ∧
    (2 ^ 22 ≤ b.toNat → exec (.cmdSeekBlock b) s = .next (overflowed s))

/-- R229, R35: from FAULT no step is enabled and no host operation is accepted; nor, by the model's choice of log 21, a
device command. -/
def Obligations.FaultPhaseStopsEverything : Prop :=
  ∀ (s : State) (a n d b : Word), s.phase = .fault →
    step s = .fault .halted ∧
    exec .hostMount s = .fault .halted ∧ exec .hostUnmount s = .fault .halted ∧
    exec (.hostRead a n) s = .fault .halted ∧ exec (.hostWrite a n) s = .fault .halted ∧
    exec .cmdMount s = .fault .halted ∧ exec .cmdUnmount s = .fault .halted ∧
    exec (.cmdFormatDrum d b) s = .fault .halted ∧ exec (.cmdSeekDrum d) s = .fault .halted ∧
    exec (.cmdSeekBlock b) s = .fault .halted ∧ exec (.cmdDiskRead d b) s = .fault .halted ∧
    exec (.cmdDiskWrite d b) s = .fault .halted

/-! ### Host operations -/

/-- R141 and R144, their first steps: MOUNT and UNMOUNT are accepted in IDLE, and write `op` and `phase` only. -/
def Obligations.LifecycleStartSteps : Prop :=
  ∀ s : State, Ready s →
    exec .hostMount s = .next { s with op := .mount, phase := .mMount } ∧
    exec .hostUnmount s = .next { s with op := .unmount, phase := .uUnmount }

/-- R141 to R143, the three steps of MOUNT: it issues Mount; on a negative status it ends with MountFailure and no
FormatDrum; else it issues FormatDrum(0, 0) and ends with OK whatever its status. `a1` and `a2` are any answers. -/
def Obligations.MountIssuesMountThenFormat : Prop :=
  ∀ (s : State) (a1 a2 : Answer) (rest : List Answer), Ready s → s.answers = a1 :: a2 :: rest →
    ∃ t, exec .hostMount s = .next t ∧ t = { s with op := .mount, phase := .mMount } ∧
      (a1.status.toInt < 0 → step t = .next { s with
        op := .mount, phase := .idle, result := .mountFailure, answers := a2 :: rest,
        trace := s.trace ++ [⟨fieldsWord s.cfg.opc.mount 0 0, none, a1.status, none⟩] }) ∧
      (0 ≤ a1.status.toInt → ∃ u, step t = .next u ∧ u.phase = .mFormat ∧ step u = .next { s with
        op := .mount, phase := .idle, result := .ok, answers := rest,
        trace := s.trace ++ [⟨fieldsWord s.cfg.opc.mount 0 0, none, a1.status, none⟩,
          ⟨fieldsWord s.cfg.opc.formatDrum 0 0, none, a2.status, none⟩] })

/-- R144, the two steps of UNMOUNT: it issues Unmount, in both outcomes, and ends with UnmountFailure iff the status is
negative. -/
def Obligations.UnmountReportsTheStatus : Prop :=
  ∀ (s : State) (a : Answer) (rest : List Answer), Ready s → s.answers = a :: rest →
    ∃ t, exec .hostUnmount s = .next t ∧ t = { s with op := .unmount, phase := .uUnmount } ∧ step t = .next { s with
      op := .unmount, phase := .idle, result := if a.status.toInt < 0 then .unmountFailure else .ok,
      answers := rest,
      trace := s.trace ++ [⟨fieldsWord s.cfg.opc.unmount 0 0, none, a.status, none⟩] }

/-- R155: the start step of READ and of WRITE, taken only in IDLE with `fault` clear. It writes the registers the rule
lists and no others; of BB the statement says nothing (R38 leaves it unspecified at the start of a call; log 5). -/
def Obligations.TransferStartStep : Prop :=
  ∀ (s : State) (address length : Word),
    (Ready s → length.toNat ≤ s.hbCapacity →
      (∃ t, exec (.hostRead address length) s = .next t ∧
        t = { s with
          op := .read, drum := BitVec.ofNat 17 (address.toNat / 2 ^ 16),
          block := BitVec.ofNat 22 (address.toNat / 2 ^ 8 % 2 ^ 8), byteOffset := BitVec.ofNat 8 (address.toNat % 2 ^ 8),
          firstBlock := BitVec.ofNat 8 (address.toNat / 2 ^ 8 % 2 ^ 8), first := true, transferred := 0,
          length := length, phase := .lTest, bb := t.bb }) ∧
      (∃ t, exec (.hostWrite address length) s = .next t ∧
        t = { s with
          op := .write, drum := BitVec.ofNat 17 (address.toNat / 2 ^ 16),
          block := BitVec.ofNat 22 (address.toNat / 2 ^ 8 % 2 ^ 8), byteOffset := BitVec.ofNat 8 (address.toNat % 2 ^ 8),
          firstBlock := BitVec.ofNat 8 (address.toNat / 2 ^ 8 % 2 ^ 8), first := true, transferred := 0,
          length := length, phase := .lTest, bb := t.bb })) ∧
    (∀ t, exec (.hostRead address length) s = .next t ∨ exec (.hostWrite address length) s = .next t → Ready s)

/-- R155, R71: a host operation at any time but in IDLE is not accepted (93 U8: refuse). -/
def Obligations.RequestOutsideIdleNotAccepted : Prop :=
  ∀ (s : State) (a n : Word), Running s → s.phase ≠ .idle →
    exec .hostMount s = .refused .notAccepted ∧ exec .hostUnmount s = .refused .notAccepted ∧
    exec (.hostRead a n) s = .refused .notAccepted ∧ exec (.hostWrite a n) s = .refused .notAccepted

/-- R154: a call whose buffer is shorter than `length` is refused (93 U7). -/
def Obligations.ShortBufferRefused : Prop :=
  ∀ (s : State) (a n : Word), Ready s → s.hbCapacity < n.toNat →
    exec (.hostRead a n) s = .refused .bufferTooShort ∧ exec (.hostWrite a n) s = .refused .bufferTooShort

/-! ### The steps of the sequencer -/

/-- R160: the loop test. -/
def Obligations.LoopTestStep : Prop :=
  ∀ s : State, s.phase = .lTest → s.fault = false →
    (s.transferred < s.length → step s = .next { s with phase := .validate }) ∧
    (¬ s.transferred < s.length → step s = .next { s with result := .ok, phase := .idle })

/-- R161, R226: the range check, the drum bound exclusive and the block bound inclusive; a violation writes `result` and
`phase` and nothing else. -/
def Obligations.RangeCheckStep : Prop :=
  ∀ s : State, s.phase = .validate → s.fault = false →
    (s.drum.toNat < s.cfg.maxDrumCount ∧ s.block.toNat ≤ s.cfg.maxBlockId → step s = .next { s with phase := .first }) ∧
    (s.cfg.maxDrumCount ≤ s.drum.toNat ∨ s.cfg.maxBlockId < s.block.toNat →
      step s = .next { s with result := .addressOutOfRange, phase := .idle })

/-- R162: the first-iteration test by the flag, and the setting of `cursor`. -/
def Obligations.FirstTestStep : Prop :=
  ∀ s : State, s.phase = .first → s.fault = false → s.cfg.AsSpecified →
    (s.first = true → step s = .next { s with cursor := s.byteOffset.setWidth 9, phase := .seekDrum }) ∧
    (s.first = false → step s = .next { s with cursor := 0, phase := .roll })

/-- R163, R164: the two seeks of the first iteration, statuses discarded; SeekDrum faults iff the drum is 16 or more, and
SeekBlock never does. -/
def Obligations.SeekSteps : Prop :=
  ∀ s : State, s.fault = false → s.cfg.AsSpecified →
    (s.phase = .seekDrum → s.drum.toNat < 16 →
      step s = .next { exchanged (fieldsWord s.cfg.opc.seekDrum (s.drum.setWidth 4) 0) s with phase := .seekBlock }) ∧
    (s.phase = .seekDrum → 16 ≤ s.drum.toNat → step s = .next (overflowed s)) ∧
    (s.phase = .seekBlock →
      step s = .next { exchanged (fieldsWord s.cfg.opc.seekBlock 0 s.block) s with phase := .roll })

/-- R166, R186: rollover at block 256: block 0 of the next drum, SeekDrum of it with no range check, EncodeOverflow iff
the new drum is 16 or more; below 256 no command. The drum is at most 65536, as in every state `Inv` admits. -/
def Obligations.RolloverStep : Prop :=
  ∀ s : State, s.phase = .roll → s.fault = false → s.cfg.AsSpecified → s.drum.toNat ≤ 65536 →
    (s.block.toNat < 256 → step s = .next { s with phase := .dread }) ∧
    (256 ≤ s.block.toNat → s.drum.toNat + 1 < 16 →
      step s = .next
        { exchanged (fieldsWord s.cfg.opc.seekDrum (BitVec.ofNat 4 (s.drum.toNat + 1)) 0)
            { s with block := 0, drum := BitVec.ofNat 17 (s.drum.toNat + 1) } with phase := .dread }) ∧
    (256 ≤ s.block.toNat → 16 ≤ s.drum.toNat + 1 →
      step s = .next (overflowed { s with block := 0, drum := BitVec.ofNat 17 (s.drum.toNat + 1) }))

/-- R167, R168: DiskRead of the current drum and block into BB, its status discarded; then `block` one further. -/
def Obligations.ReadAndIncrementSteps : Prop :=
  ∀ s : State, s.fault = false → s.cfg.AsSpecified →
    (s.phase = .dread → s.drum.toNat < 16 →
      step s = .next
        { exchangedBuffer (fieldsWord s.cfg.opc.diskRead (s.drum.setWidth 4) s.block) s with phase := .inc }) ∧
    (s.phase = .dread → 16 ≤ s.drum.toNat → step s = .next (overflowed s)) ∧
    (s.phase = .inc → s.block.toNat < 2 ^ 22 - 1 →
      step s = .next { s with block := BitVec.ofNat 22 (s.block.toNat + 1), phase := .copy })

/-- R169: one byte moved and counted: in READ from BB at `cursor` to HB at `transferred`, in WRITE the other way
(whatever HB holds there, listed or free, log 6). Every other byte of the buffer written reads as before, and nothing
changes but that buffer and the two counters. -/
def Obligations.CopyMovesOneByte : Prop :=
  ∀ (s : State) (v : Byte), s.phase = .copy → s.fault = false → s.transferred.toNat < s.length.toNat →
    s.cursor.toNat < 256 →
    (s.op = .read → memRead s.bb s.cursor.toNat = some v →
      ∃ t, step s = .next t ∧
        t = { s with hb := t.hb, transferred := s.transferred + 1, cursor := s.cursor + 1 } ∧
        memRead t.hb s.transferred.toNat = some v ∧
        ∀ i, i ≠ s.transferred.toNat → memRead t.hb i = memRead s.hb i) ∧
    (s.op = .write →
      ∃ t, step s = .next t ∧
        t = { s with bb := t.bb, transferred := s.transferred + 1, cursor := s.cursor + 1 } ∧
        memRead t.bb s.cursor.toNat = some (hostByte s s.transferred.toNat) ∧
        ∀ i, i ≠ s.cursor.toNat → memRead t.bb i = memRead s.bb i)

/-- R170, R173: where the inner loop ends, and the end of the loop body. -/
def Obligations.IterationEndSteps : Prop :=
  ∀ s : State, s.fault = false →
    (s.phase = .copy → s.length.toNat ≤ s.transferred.toNat ∨ 256 ≤ s.cursor.toNat →
      (s.op = .write → step s = .next { s with phase := .wbSeek }) ∧
      (s.op ≠ .write → step s = .next { s with phase := .iterEnd })) ∧
    (s.phase = .iterEnd → step s = .next { s with first := false, phase := .lTest })

/-- R171, R172, R187: the write-back: SeekBlock(block - 1), then DiskWrite whose ParamB is `block`, one past the block
written, with the whole of BB; statuses discarded. (BB after DiskWrite: log 8.) -/
def Obligations.WriteBackSteps : Prop :=
  ∀ s : State, s.fault = false → s.cfg.AsSpecified →
    (s.phase = .wbSeek → 1 ≤ s.block.toNat →
      step s = .next
        { exchanged (fieldsWord s.cfg.opc.seekBlock 0 (BitVec.ofNat 22 (s.block.toNat - 1))) s with phase := .wbWrite }) ∧
    (s.phase = .wbWrite → s.drum.toNat < 16 →
      step s = .next
        { exchangedBuffer (fieldsWord s.cfg.opc.diskWrite (s.drum.setWidth 4) s.block) s with phase := .iterEnd }) ∧
    (s.phase = .wbWrite → 16 ≤ s.drum.toNat → step s = .next (overflowed s))

/-- 93 U2, the variant CHECK_STATUS_IN_LOOP = true, which this hardware does not take: a negative status of a command of
the loop ends the call with DeviceCommandFailure, in each of the five phases that always submit. -/
def Obligations.CheckedVariantRaisesDeviceCommandFailure : Prop :=
  ∀ (s t : State) (a : Answer) (rest : List Answer), s.fault = false → s.cfg.checkStatusInLoop = true →
    s.phase ∈ [Phase.seekDrum, .seekBlock, .dread, .wbSeek, .wbWrite] → s.drum.toNat < 16 →
    s.answers = a :: rest → a.status.toInt < 0 → step s = .next t →
    t.phase = .idle ∧ t.result = .deviceCommandFailure ∧ t.trace.length = s.trace.length + 1

/-! ### The machine -/

/-- In IDLE, where the next request decodes to an operation, a step is that operation's meaning with the request taken
off the list; with no request the block waits; a request the decoder rejects is refused by that name. The model's
choices: the list of requests (log 9), requests at the units' own ports and single device commands (log 10, log 21), and
the refusal of a word that is no emitted command word, deduced from rules that speak of a device (log 15). -/
def Obligations.StepRunsTheDecodedRequest : Prop :=
  ∀ s : State, Ready s →
    (∀ (r : Request) (rest : List Request) (i : Instr), s.requests = r :: rest →
      decode s.cfg.opc r = .operation i → step s = exec i { s with requests := rest }) ∧
    (∀ (r : Request) (rest : List Request) (e : DecodeError), s.requests = r :: rest →
      decode s.cfg.opc r = .rejected e → step s = .refused (.undecodable e)) ∧
    (s.requests = [] → step s = .next s)

/-- R250: `phase`, `result`, `fault` and `first` after reset, and that no step leaves the FAULT phase. That no byte of BB
holds a value is the model's choice for what R250 leaves unspecified (log 4). -/
def Obligations.ResetStateAndNoExitFromFault : Prop :=
  State.reset.phase = .idle ∧ State.reset.result.code = 0 ∧ State.reset.fault = false ∧ State.reset.first = false ∧
  (∀ i, memRead State.reset.bb i = none) ∧
  (∀ s t : State, s.phase = .fault → step s ≠ .next t)

/-- `Inv` holds at reset. (The values of the registers R43 leaves unspecified are the model's, log 3.) -/
def Obligations.InvAtReset : Prop := Inv State.reset

/-- `Inv` is kept by every step, from every state that meets it: canonical memories, the fault flag with the FAULT phase,
register bounds (R10, R28, R29), the operation that fits the phase, a range-checked drum, a filled Block Buffer. -/
def Obligations.StepKeepsInv : Prop :=
  ∀ s t : State, Inv s → step s = .next t → Inv t

/-- R190, R141 to R144: a step goes from a phase to one of its successors, in a configuration of this hardware. -/
def Obligations.PhaseFollowsItsSuccessors : Prop :=
  ∀ s t : State, s.cfg.AsSpecified → step s = .next t → t.phase ∈ phaseSuccessors s.phase

/-- R38: no rule reads a byte of BB that holds no value: from a state that meets `Inv` no step stops so, and every step of
a READ or WRITE answers a next state. (That such a read would stop is the model's choice, log 4; that a byte of HB is
always there to be read is log 6.) -/
def Obligations.TransfersNeverStop : Prop :=
  ∀ s : State, Inv s →
    (∀ i, step s ≠ .fault (.unwrittenByte i)) ∧ (s.phase ∈ transferPhases → ∃ t, step s = .next t)

/-- R10 (c), for MAX_DRUM_COUNT at most 16 as R10 (d) requires: with at most 15 drums, or with MAX_BLOCK_ID below the
rollover threshold, no step of a READ or WRITE faults. -/
def Obligations.OverflowUnreachableInSmallVolumes : Prop :=
  ∀ s t : State, Inv s → s.phase ∈ transferPhases → s.cfg.maxDrumCount ≤ 16 →
    (s.cfg.maxDrumCount ≤ 15 ∨ s.cfg.maxBlockId < 256) → step s = .next t → t.phase ≠ .fault

/-- R10 (d), R261: with more than 16 drums, a call whose drum is 16 or more and in range passes the range check and
faults at its first SeekDrum, having submitted nothing. -/
def Obligations.WideDrumFaultsAtFirstSeek : Prop :=
  ∀ (s : State) (address length : Word), Ready s → s.cfg.Valid → length.toNat ≤ s.hbCapacity → 0 < length.toNat →
    16 ≤ address.toNat / 2 ^ 16 → address.toNat / 2 ^ 16 < s.cfg.maxDrumCount →
    address.toNat / 2 ^ 8 % 2 ^ 8 ≤ s.cfg.maxBlockId →
    ∃ t u, exec (.hostRead address length) s = .next t ∧ Host.Core.run Sys2Proof.core 4 t = .next u ∧
      u.phase = .fault ∧ u.fault = true ∧ u.result = s.result ∧ u.trace = s.trace ∧ u.hb = s.hb

/-- R153: with length 0, READ and WRITE return OK whatever the address, with no command, HB and the coming answers
untouched. -/
def Obligations.ZeroLengthIsANoOpSuccess : Prop :=
  ∀ (s : State) (address : Word), Ready s →
    (∃ t u, exec (.hostRead address 0) s = .next t ∧ step t = .next u ∧ u.phase = .idle ∧ u.result = .ok ∧
      u.trace = s.trace ∧ u.answers = s.answers ∧ u.hb = s.hb) ∧
    (∃ t u, exec (.hostWrite address 0) s = .next t ∧ step t = .next u ∧ u.phase = .idle ∧ u.result = .ok ∧
      u.trace = s.trace ∧ u.answers = s.answers ∧ u.hb = s.hb)

/-- R161, R223, R230: an address whose drum or block is out of range, and a length of one or more: AddressOutOfRange with
no command at all, also for a drum too wide for ParamA. -/
def Obligations.OutOfRangeIssuesNoCommand : Prop :=
  ∀ (s : State) (address length : Word), Ready s → length.toNat ≤ s.hbCapacity → 0 < length.toNat →
    s.cfg.maxDrumCount ≤ address.toNat / 2 ^ 16 ∨ s.cfg.maxBlockId < address.toNat / 2 ^ 8 % 2 ^ 8 →
    (∃ t u, exec (.hostRead address length) s = .next t ∧ Host.Core.run Sys2Proof.core 2 t = .next u ∧
      u.phase = .idle ∧ u.result = .addressOutOfRange ∧ u.trace = s.trace ∧ u.hb = s.hb) ∧
    (∃ t u, exec (.hostWrite address length) s = .next t ∧ Host.Core.run Sys2Proof.core 2 t = .next u ∧
      u.phase = .idle ∧ u.result = .addressOutOfRange ∧ u.trace = s.trace ∧ u.hb = s.hb)

/-- R20, R14: no step writes the configuration, or what is the host's of HB but its bytes; a step adds at most one exchange to the trace and
takes none away. -/
def Obligations.StepSubmitsAtMostOnce : Prop :=
  ∀ s t : State, step s = .next t →
    t.cfg = s.cfg ∧ t.hbCapacity = s.hbCapacity ∧ t.hbFill = s.hbFill ∧ ∃ es : List Exchange, es.length ≤ 1 ∧ t.trace = s.trace ++ es

/-- R34: `result` changes only in a step that returns `phase` to IDLE from a phase of an operation. -/
def Obligations.ResultWrittenAtTheEnd : Prop :=
  ∀ s t : State, step s = .next t → t.result ≠ s.result → s.phase ≠ .idle ∧ t.phase = .idle

/-- R35, R229: `fault` is set only by a step into FAULT, which submits nothing and leaves `result`, BB and HB alone, and
no step clears it. -/
def Obligations.FaultFlagIsSticky : Prop :=
  ∀ s t : State, step s = .next t →
    s.fault = false ∧
    (t.fault = true → t.phase = .fault ∧ t.trace = s.trace ∧ t.result = s.result ∧ t.bb = s.bb ∧ t.hb = s.hb)

/-- R175: inside the loop a step does not depend on the statuses: two states that differ only in the statuses of the
coming answers and of the trace step to states that differ only so. -/
def Obligations.LoopIgnoresStatuses : Prop :=
  ∀ s s' t : State, s.cfg.AsSpecified → s.phase ∈ transferPhases → s.answers ≠ [] →
    s' = { s with answers := s'.answers, trace := s'.trace } →
    s.answers.map Answer.buffer = s'.answers.map Answer.buffer →
    List.Forall₂ SameButStatus s.trace s'.trace → step s = .next t →
    ∃ t', step s' = .next t' ∧ t' = { t with answers := t'.answers, trace := t'.trace } ∧
      t.answers.map Answer.buffer = t'.answers.map Answer.buffer ∧ List.Forall₂ SameButStatus t.trace t'.trace

/-! ### Whole transfers -/

/-- R156, R190: the steps and XFER agree. A READ or WRITE that is accepted reaches, in at most 13 steps for each byte and
one more, exactly the outcome of XFER; and where that is a state, it is IDLE or FAULT. -/
def Obligations.StepsAgreeWithXfer : Prop :=
  ∀ (s : State) (address length : Word), Ready s → length.toNat ≤ s.hbCapacity →
    (∃ t k, exec (.hostRead address length) s = .next t ∧ k ≤ 13 * length.toNat + 1 ∧
      Host.Core.run Sys2Proof.core k t = xfer .read address length s) ∧
    (∃ t k, exec (.hostWrite address length) s = .next t ∧ k ≤ 13 * length.toNat + 1 ∧
      Host.Core.run Sys2Proof.core k t = xfer .write address length s) ∧
    (∀ dir u, xfer dir address length s = .next u → u.phase = .idle ∨ u.phase = .fault)

/-- R180, R182, R183, R53: a READ that stays in range and within one drum returns OK; its words are SeekDrum, SeekBlock
and one DiskRead per block; byte `i` of HB is byte `(o0 + i) mod 256` of what the DiskRead of its block delivered; and no
byte of HB at `length` or above changes. For every device: nothing is assumed of the answers. -/
def Obligations.ReadWalksTheBlocks : Prop :=
  ∀ (s : State) (address length : Word) (d0 b0 o0 n : Nat), s.cfg.Valid → Ready s →
    length.toNat ≤ s.hbCapacity → 1 ≤ length.toNat →
    d0 = address.toNat / 2 ^ 16 → b0 = address.toNat / 2 ^ 8 % 2 ^ 8 → o0 = address.toNat % 2 ^ 8 →
    n = (o0 + length.toNat + 255) / 256 → d0 < s.cfg.maxDrumCount → d0 < 16 →
    b0 + n ≤ 256 → b0 + n ≤ s.cfg.maxBlockId + 1 →
    ∃ t k u es, exec (.hostRead address length) s = .next t ∧ Host.Core.run Sys2Proof.core k t = .next u ∧
      u.phase = .idle ∧ u.result = .ok ∧ u.trace = s.trace ++ es ∧
      es.map Exchange.word =
        fieldsWord s.cfg.opc.seekDrum (BitVec.ofNat 4 d0) 0 :: fieldsWord s.cfg.opc.seekBlock 0 (BitVec.ofNat 22 b0) ::
          (List.range n).map (fun j => fieldsWord s.cfg.opc.diskRead (BitVec.ofNat 4 d0) (BitVec.ofNat 22 (b0 + j))) ∧
      (∀ i, i < length.toNat → ∃ e data, es[2 + (o0 + i) / 256]? = some e ∧ e.returned = some data ∧
        memRead u.hb i = data.toList[(o0 + i) % 256]?) ∧
      (∀ i, length.toNat ≤ i → memRead u.hb i = memRead s.hb i)

/-- R181, R184, R187, R63: a WRITE that stays in range and within one drum, whatever its buffer holds, returns OK; its
words are SeekDrum, SeekBlock and, for each block, DiskRead, SeekBlock, DiskWrite with ParamB one higher; what
goes out with each DiskWrite is what the block's DiskRead delivered with the bytes of HB merged in; HB is not changed. -/
def Obligations.WriteMergesEveryBlock : Prop :=
  ∀ (s : State) (address length : Word) (d0 b0 o0 n : Nat), s.cfg.Valid → Ready s →
    length.toNat ≤ s.hbCapacity → 1 ≤ length.toNat →
    d0 = address.toNat / 2 ^ 16 → b0 = address.toNat / 2 ^ 8 % 2 ^ 8 → o0 = address.toNat % 2 ^ 8 →
    n = (o0 + length.toNat + 255) / 256 → d0 < s.cfg.maxDrumCount → d0 < 16 →
    b0 + n ≤ 256 → b0 + n ≤ s.cfg.maxBlockId + 1 →
    ∃ t k u es, exec (.hostWrite address length) s = .next t ∧ Host.Core.run Sys2Proof.core k t = .next u ∧
      u.phase = .idle ∧ u.result = .ok ∧ u.hb = s.hb ∧ u.trace = s.trace ++ es ∧
      es.map Exchange.word =
        fieldsWord s.cfg.opc.seekDrum (BitVec.ofNat 4 d0) 0 :: fieldsWord s.cfg.opc.seekBlock 0 (BitVec.ofNat 22 b0) ::
          (List.range n).flatMap (fun j =>
            [fieldsWord s.cfg.opc.diskRead (BitVec.ofNat 4 d0) (BitVec.ofNat 22 (b0 + j)),
             fieldsWord s.cfg.opc.seekBlock 0 (BitVec.ofNat 22 (b0 + j)),
             fieldsWord s.cfg.opc.diskWrite (BitVec.ofNat 4 d0) (BitVec.ofNat 22 (b0 + j + 1))]) ∧
      (∀ j, j < n → ∃ er ew data m, es[2 + 3 * j]? = some er ∧ er.returned = some data ∧
        es[2 + 3 * j + 2]? = some ew ∧ ew.sent = some m ∧
        ∀ p, p < 256 → memRead m p =
          if o0 ≤ 256 * j + p ∧ 256 * j + p < o0 + length.toNat then
            some (hostByte s (256 * j + p - o0))
          else data.toList[p]?)

/-- R53, R40: however a transfer ends, READ changes no byte of HB at `length` or above, and WRITE changes no byte of HB
at all. -/
def Obligations.HostBufferFrame : Prop :=
  ∀ (s u : State) (address length : Word),
    (xfer .read address length s = .next u →
      ∀ i, length.toNat ≤ i → memRead u.hb i = memRead s.hb i) ∧
    (xfer .write address length s = .next u → u.hb = s.hb)

/-- R41: no value is carried from one call to the next: a READ or WRITE does the same to HB, to the device and to
`result`, whatever the working registers and BB held before it. For the two runs to meet the same environment the
statement rests on the model's readings: past the end of the coming answers the device's answer is one function of the
history (log 7), the bytes of HB that are not listed are the same (log 6), and BB is emptied at the start, which is why
the first DiskRead hands over the same buffer (log 5). -/
def Obligations.NothingCarriedBetweenCalls : Prop :=
  ∀ (s s' u : State) (dir : HostOp) (address length : Word),
    s'.cfg = s.cfg → s'.hb = s.hb → s'.hbFill = s.hbFill → s'.hbCapacity = s.hbCapacity → s'.answers = s.answers →
    s'.trace = s.trace → xfer dir address length s = .next u →
    ∃ u', xfer dir address length s' = .next u' ∧ u'.phase = u.phase ∧ u'.hb = u.hb ∧ u'.trace = u.trace ∧
      u'.answers = u.answers ∧ (u.phase = .idle → u'.result = u.result)

/-- R185, R227: with MAX_BLOCK_ID below 256 a READ or WRITE that starts in range, in any block, and needs more than the
rest of its drum's valid blocks ends with AddressOutOfRange after these `k` blocks, on the same drum. Its commands for
them stand; in READ the bytes of these blocks are in HB and the rest of HB is as before; in WRITE every one of them went
out merged, and HB is as before. -/
def Obligations.TransferStopsAtTheEndOfADrum : Prop :=
  ∀ (s : State) (address length : Word) (d0 b0 o0 k : Nat), s.cfg.Valid → Ready s → s.cfg.maxBlockId < 256 →
    d0 = address.toNat / 2 ^ 16 → b0 = address.toNat / 2 ^ 8 % 2 ^ 8 → o0 = address.toNat % 2 ^ 8 →
    d0 < s.cfg.maxDrumCount → d0 < 16 → b0 ≤ s.cfg.maxBlockId → k = s.cfg.maxBlockId + 1 - b0 →
    256 * k - o0 < length.toNat → length.toNat ≤ s.hbCapacity →
    (∃ u es, xfer .read address length s = .next u ∧ u.phase = .idle ∧ u.result = .addressOutOfRange ∧
      u.transferred.toNat = 256 * k - o0 ∧ u.drum.toNat = d0 ∧ u.block.toNat = s.cfg.maxBlockId + 1 ∧
      u.trace = s.trace ++ es ∧
      es.map Exchange.word =
        fieldsWord s.cfg.opc.seekDrum (BitVec.ofNat 4 d0) 0 :: fieldsWord s.cfg.opc.seekBlock 0 (BitVec.ofNat 22 b0) ::
          (List.range k).map (fun j => fieldsWord s.cfg.opc.diskRead (BitVec.ofNat 4 d0) (BitVec.ofNat 22 (b0 + j))) ∧
      (∀ i, i < 256 * k - o0 → ∃ e data, es[2 + (o0 + i) / 256]? = some e ∧ e.returned = some data ∧
        memRead u.hb i = data.toList[(o0 + i) % 256]?) ∧
      (∀ i, 256 * k - o0 ≤ i → memRead u.hb i = memRead s.hb i)) ∧
    (∃ u es, xfer .write address length s = .next u ∧ u.phase = .idle ∧ u.result = .addressOutOfRange ∧
      u.transferred.toNat = 256 * k - o0 ∧ u.drum.toNat = d0 ∧ u.block.toNat = s.cfg.maxBlockId + 1 ∧ u.hb = s.hb ∧
      u.trace = s.trace ++ es ∧
      es.map Exchange.word =
        fieldsWord s.cfg.opc.seekDrum (BitVec.ofNat 4 d0) 0 :: fieldsWord s.cfg.opc.seekBlock 0 (BitVec.ofNat 22 b0) ::
          (List.range k).flatMap (fun j =>
            [fieldsWord s.cfg.opc.diskRead (BitVec.ofNat 4 d0) (BitVec.ofNat 22 (b0 + j)),
             fieldsWord s.cfg.opc.seekBlock 0 (BitVec.ofNat 22 (b0 + j)),
             fieldsWord s.cfg.opc.diskWrite (BitVec.ofNat 4 d0) (BitVec.ofNat 22 (b0 + j + 1))]) ∧
      (∀ j, j < k → ∃ er ew data m, es[2 + 3 * j]? = some er ∧ er.returned = some data ∧
        es[2 + 3 * j + 2]? = some ew ∧ ew.sent = some m ∧
        ∀ p, p < 256 → memRead m p =
          if o0 ≤ 256 * j + p then some (hostByte s (256 * j + p - o0)) else data.toList[p]?))

/-! ### With a device that meets DA1 to DA6 -/

/-- R192, R51, with a device that meets DA1 to DA6 of R206 and every command succeeding: a READ that returns OK puts
into HB the stored bytes at the linear addresses from `address` on, across blocks and, where rollover fires, drums. -/
def Obligations.ReadDeliversStoredBytes : Prop :=
  ∀ (s u : State) (address length : Word) (es : List Exchange) (v v' : Volume), s.cfg.Valid →
    xfer .read address length s = .next u → u.phase = .idle → u.result = .ok →
    u.trace = s.trace ++ es → Volume.serves s.cfg.opc v es v' → allSucceeded es →
    v'.store = v.store ∧
    ∀ i, i < length.toNat → memRead u.hb i =
      (v.store ((address.toNat + i) / 2 ^ 16) ((address.toNat + i) / 2 ^ 8 % 2 ^ 8)).toList[(address.toNat + i) % 2 ^ 8]?

/-- R184, R192, with a device that meets DA1 to DA6 and every command succeeding: a WRITE that returns OK stores the
bytes of HB at the linear addresses from `address` on, and changes no other stored byte. -/
def Obligations.WriteStoresExactlyItsBytes : Prop :=
  ∀ (s u : State) (address length : Word) (es : List Exchange) (v v' : Volume), s.cfg.Valid →
    xfer .write address length s = .next u → u.phase = .idle → u.result = .ok →
    u.trace = s.trace ++ es → Volume.serves s.cfg.opc v es v' → allSucceeded es →
    ∀ d b p, p < 256 → (v'.store d b).toList[p]? =
      if b < 256 ∧ address.toNat ≤ d * 2 ^ 16 + b * 2 ^ 8 + p ∧
          d * 2 ^ 16 + b * 2 ^ 8 + p < address.toNat + length.toNat then
        some (hostByte s (d * 2 ^ 16 + b * 2 ^ 8 + p - address.toNat))
      else (v.store d b).toList[p]?

/-- 95_test_vectors.md S3, with a device that meets DA1 to DA6 and every command succeeding: a READ of the range of a
WRITE, into any buffer, after it returns exactly the bytes written. The host changes HB, its requests and the device's
coming answers between the calls, and nothing else. -/
def Obligations.ReadAfterWriteReturnsTheBytes : Prop :=
  ∀ (s u u' w : State) (address length : Word) (es es' : List Exchange) (v v' v'' : Volume), s.cfg.Valid →
    xfer .write address length s = .next u → u.phase = .idle → u.result = .ok → u.trace = s.trace ++ es →
    Volume.serves s.cfg.opc v es v' → allSucceeded es →
    u' = { u with
      hb := u'.hb, hbFill := u'.hbFill, hbCapacity := u'.hbCapacity, answers := u'.answers, requests := u'.requests } →
    xfer .read address length u' = .next w → w.phase = .idle → w.result = .ok → w.trace = u'.trace ++ es' →
    Volume.serves s.cfg.opc v' es' v'' → allSucceeded es' →
    ∀ i, i < length.toNat → memRead w.hb i = some (hostByte s i)

/-- 92 D21: the witness device RD meets DA1 to DA6, at every exchange in which a buffer accompanies each DiskRead
(R202). -/
def Obligations.WitnessDeviceMeetsTheAssumptions : Prop :=
  ∀ (m : OpcMap) (d : WitnessDevice) (w : Word) (sent : Option Memory),
    (∀ a b, decodeCmd m w = some (.diskRead, a, b) → sent.isSome) →
    Volume.meets m (witnessVolume d)
      ⟨w, sent, (witnessSubmit m w sent d).1.status, returnedBuffer sent (witnessSubmit m w sent d).1⟩
      (witnessVolume (witnessSubmit m w sent d).2)
end

