-- ==== Sys2Proof/Laws/State.lean ====
section
/-! SUPPORT. What each named update of the state does to each field: one lemma per field per update, true by rfl. -/

namespace Sys2Proof.Machine

/-! ### goto -/

@[simp] theorem goto_cfg (p : Phase) (s : State) : (goto p s).cfg = s.cfg := rfl
@[simp] theorem goto_phase (p : Phase) (s : State) : (goto p s).phase = p := rfl
@[simp] theorem goto_op (p : Phase) (s : State) : (goto p s).op = s.op := rfl
@[simp] theorem goto_drum (p : Phase) (s : State) : (goto p s).drum = s.drum := rfl
@[simp] theorem goto_block (p : Phase) (s : State) : (goto p s).block = s.block := rfl
@[simp] theorem goto_byteOffset (p : Phase) (s : State) : (goto p s).byteOffset = s.byteOffset := rfl
@[simp] theorem goto_firstBlock (p : Phase) (s : State) : (goto p s).firstBlock = s.firstBlock := rfl
@[simp] theorem goto_first (p : Phase) (s : State) : (goto p s).first = s.first := rfl
@[simp] theorem goto_cursor (p : Phase) (s : State) : (goto p s).cursor = s.cursor := rfl
@[simp] theorem goto_transferred (p : Phase) (s : State) : (goto p s).transferred = s.transferred := rfl
@[simp] theorem goto_length (p : Phase) (s : State) : (goto p s).length = s.length := rfl
@[simp] theorem goto_result (p : Phase) (s : State) : (goto p s).result = s.result := rfl
@[simp] theorem goto_fault (p : Phase) (s : State) : (goto p s).fault = s.fault := rfl
@[simp] theorem goto_bb (p : Phase) (s : State) : (goto p s).bb = s.bb := rfl
@[simp] theorem goto_hb (p : Phase) (s : State) : (goto p s).hb = s.hb := rfl
@[simp] theorem goto_hbFill (p : Phase) (s : State) : (goto p s).hbFill = s.hbFill := rfl
@[simp] theorem goto_hbCapacity (p : Phase) (s : State) : (goto p s).hbCapacity = s.hbCapacity := rfl
@[simp] theorem goto_requests (p : Phase) (s : State) : (goto p s).requests = s.requests := rfl
@[simp] theorem goto_answers (p : Phase) (s : State) : (goto p s).answers = s.answers := rfl
@[simp] theorem goto_trace (p : Phase) (s : State) : (goto p s).trace = s.trace := rfl
@[simp] theorem goto_adec (p : Phase) (s : State) : (goto p s).adec = s.adec := rfl
@[simp] theorem goto_dceWord (p : Phase) (s : State) : (goto p s).dceWord = s.dceWord := rfl

/-! ### endOperation -/

@[simp] theorem endOperation_cfg (r : ResultCode) (s : State) : (endOperation r s).cfg = s.cfg := rfl
@[simp] theorem endOperation_phase (r : ResultCode) (s : State) : (endOperation r s).phase = .idle := rfl
@[simp] theorem endOperation_op (r : ResultCode) (s : State) : (endOperation r s).op = s.op := rfl
@[simp] theorem endOperation_drum (r : ResultCode) (s : State) : (endOperation r s).drum = s.drum := rfl
@[simp] theorem endOperation_block (r : ResultCode) (s : State) : (endOperation r s).block = s.block := rfl
@[simp] theorem endOperation_byteOffset (r : ResultCode) (s : State) : (endOperation r s).byteOffset = s.byteOffset := rfl
@[simp] theorem endOperation_firstBlock (r : ResultCode) (s : State) : (endOperation r s).firstBlock = s.firstBlock := rfl
@[simp] theorem endOperation_first (r : ResultCode) (s : State) : (endOperation r s).first = s.first := rfl
@[simp] theorem endOperation_cursor (r : ResultCode) (s : State) : (endOperation r s).cursor = s.cursor := rfl
@[simp] theorem endOperation_transferred (r : ResultCode) (s : State) : (endOperation r s).transferred = s.transferred := rfl
@[simp] theorem endOperation_length (r : ResultCode) (s : State) : (endOperation r s).length = s.length := rfl
@[simp] theorem endOperation_result (r : ResultCode) (s : State) : (endOperation r s).result = r := rfl
@[simp] theorem endOperation_fault (r : ResultCode) (s : State) : (endOperation r s).fault = s.fault := rfl
@[simp] theorem endOperation_bb (r : ResultCode) (s : State) : (endOperation r s).bb = s.bb := rfl
@[simp] theorem endOperation_hb (r : ResultCode) (s : State) : (endOperation r s).hb = s.hb := rfl
@[simp] theorem endOperation_hbFill (r : ResultCode) (s : State) : (endOperation r s).hbFill = s.hbFill := rfl
@[simp] theorem endOperation_hbCapacity (r : ResultCode) (s : State) : (endOperation r s).hbCapacity = s.hbCapacity := rfl
@[simp] theorem endOperation_requests (r : ResultCode) (s : State) : (endOperation r s).requests = s.requests := rfl
@[simp] theorem endOperation_answers (r : ResultCode) (s : State) : (endOperation r s).answers = s.answers := rfl
@[simp] theorem endOperation_trace (r : ResultCode) (s : State) : (endOperation r s).trace = s.trace := rfl
@[simp] theorem endOperation_adec (r : ResultCode) (s : State) : (endOperation r s).adec = s.adec := rfl
@[simp] theorem endOperation_dceWord (r : ResultCode) (s : State) : (endOperation r s).dceWord = s.dceWord := rfl

/-! ### enterFault -/

@[simp] theorem enterFault_cfg (s : State) : (enterFault s).cfg = s.cfg := rfl
@[simp] theorem enterFault_phase (s : State) : (enterFault s).phase = .fault := rfl
@[simp] theorem enterFault_op (s : State) : (enterFault s).op = s.op := rfl
@[simp] theorem enterFault_drum (s : State) : (enterFault s).drum = s.drum := rfl
@[simp] theorem enterFault_block (s : State) : (enterFault s).block = s.block := rfl
@[simp] theorem enterFault_byteOffset (s : State) : (enterFault s).byteOffset = s.byteOffset := rfl
@[simp] theorem enterFault_firstBlock (s : State) : (enterFault s).firstBlock = s.firstBlock := rfl
@[simp] theorem enterFault_first (s : State) : (enterFault s).first = s.first := rfl
@[simp] theorem enterFault_cursor (s : State) : (enterFault s).cursor = s.cursor := rfl
@[simp] theorem enterFault_transferred (s : State) : (enterFault s).transferred = s.transferred := rfl
@[simp] theorem enterFault_length (s : State) : (enterFault s).length = s.length := rfl
@[simp] theorem enterFault_result (s : State) : (enterFault s).result = s.result := rfl
@[simp] theorem enterFault_fault (s : State) : (enterFault s).fault = true := rfl
@[simp] theorem enterFault_bb (s : State) : (enterFault s).bb = s.bb := rfl
@[simp] theorem enterFault_hb (s : State) : (enterFault s).hb = s.hb := rfl
@[simp] theorem enterFault_hbFill (s : State) : (enterFault s).hbFill = s.hbFill := rfl
@[simp] theorem enterFault_hbCapacity (s : State) : (enterFault s).hbCapacity = s.hbCapacity := rfl
@[simp] theorem enterFault_requests (s : State) : (enterFault s).requests = s.requests := rfl
@[simp] theorem enterFault_answers (s : State) : (enterFault s).answers = s.answers := rfl
@[simp] theorem enterFault_trace (s : State) : (enterFault s).trace = s.trace := rfl
@[simp] theorem enterFault_adec (s : State) : (enterFault s).adec = s.adec := rfl
@[simp] theorem enterFault_dceWord (s : State) : (enterFault s).dceWord = s.dceWord := rfl

/-! ### submit -/

@[simp] theorem submit_cfg (w : Word) (m : Option Memory) (s : State) : (submit w m s).cfg = s.cfg := rfl
@[simp] theorem submit_phase (w : Word) (m : Option Memory) (s : State) : (submit w m s).phase = s.phase := rfl
@[simp] theorem submit_op (w : Word) (m : Option Memory) (s : State) : (submit w m s).op = s.op := rfl
@[simp] theorem submit_drum (w : Word) (m : Option Memory) (s : State) : (submit w m s).drum = s.drum := rfl
@[simp] theorem submit_block (w : Word) (m : Option Memory) (s : State) : (submit w m s).block = s.block := rfl
@[simp] theorem submit_byteOffset (w : Word) (m : Option Memory) (s : State) : (submit w m s).byteOffset = s.byteOffset := rfl
@[simp] theorem submit_firstBlock (w : Word) (m : Option Memory) (s : State) : (submit w m s).firstBlock = s.firstBlock := rfl
@[simp] theorem submit_first (w : Word) (m : Option Memory) (s : State) : (submit w m s).first = s.first := rfl
@[simp] theorem submit_cursor (w : Word) (m : Option Memory) (s : State) : (submit w m s).cursor = s.cursor := rfl
@[simp] theorem submit_transferred (w : Word) (m : Option Memory) (s : State) : (submit w m s).transferred = s.transferred := rfl
@[simp] theorem submit_length (w : Word) (m : Option Memory) (s : State) : (submit w m s).length = s.length := rfl
@[simp] theorem submit_result (w : Word) (m : Option Memory) (s : State) : (submit w m s).result = s.result := rfl
@[simp] theorem submit_fault (w : Word) (m : Option Memory) (s : State) : (submit w m s).fault = s.fault := rfl
@[simp] theorem submit_bb (w : Word) (m : Option Memory) (s : State) : (submit w m s).bb = bufferAfter (returnedBuffer m (nextAnswer w m s)) s.bb := rfl
@[simp] theorem submit_hb (w : Word) (m : Option Memory) (s : State) : (submit w m s).hb = s.hb := rfl
@[simp] theorem submit_hbFill (w : Word) (m : Option Memory) (s : State) : (submit w m s).hbFill = s.hbFill := rfl
@[simp] theorem submit_hbCapacity (w : Word) (m : Option Memory) (s : State) : (submit w m s).hbCapacity = s.hbCapacity := rfl
@[simp] theorem submit_requests (w : Word) (m : Option Memory) (s : State) : (submit w m s).requests = s.requests := rfl
@[simp] theorem submit_answers (w : Word) (m : Option Memory) (s : State) : (submit w m s).answers = s.answers.tail := rfl
@[simp] theorem submit_trace (w : Word) (m : Option Memory) (s : State) : (submit w m s).trace = s.trace ++ [⟨w, m, (nextAnswer w m s).status, returnedBuffer m (nextAnswer w m s)⟩] := rfl
@[simp] theorem submit_adec (w : Word) (m : Option Memory) (s : State) : (submit w m s).adec = s.adec := rfl
@[simp] theorem submit_dceWord (w : Word) (m : Option Memory) (s : State) : (submit w m s).dceWord = s.dceWord := rfl

/-! ### startTransfer -/

@[simp] theorem startTransfer_cfg (d : HostOp) (a n : Word) (s : State) : (startTransfer d a n s).cfg = s.cfg := rfl
@[simp] theorem startTransfer_phase (d : HostOp) (a n : Word) (s : State) : (startTransfer d a n s).phase = .lTest := rfl
@[simp] theorem startTransfer_op (d : HostOp) (a n : Word) (s : State) : (startTransfer d a n s).op = d := rfl
@[simp] theorem startTransfer_drum (d : HostOp) (a n : Word) (s : State) : (startTransfer d a n s).drum = (drumOf a).setWidth 17 := rfl
@[simp] theorem startTransfer_block (d : HostOp) (a n : Word) (s : State) : (startTransfer d a n s).block = (blockOf a).setWidth 22 := rfl
@[simp] theorem startTransfer_byteOffset (d : HostOp) (a n : Word) (s : State) : (startTransfer d a n s).byteOffset = offsetOf a := rfl
@[simp] theorem startTransfer_firstBlock (d : HostOp) (a n : Word) (s : State) : (startTransfer d a n s).firstBlock = blockOf a := rfl
@[simp] theorem startTransfer_first (d : HostOp) (a n : Word) (s : State) : (startTransfer d a n s).first = true := rfl
@[simp] theorem startTransfer_cursor (d : HostOp) (a n : Word) (s : State) : (startTransfer d a n s).cursor = s.cursor := rfl
@[simp] theorem startTransfer_transferred (d : HostOp) (a n : Word) (s : State) : (startTransfer d a n s).transferred = 0 := rfl
@[simp] theorem startTransfer_length (d : HostOp) (a n : Word) (s : State) : (startTransfer d a n s).length = n := rfl
@[simp] theorem startTransfer_result (d : HostOp) (a n : Word) (s : State) : (startTransfer d a n s).result = s.result := rfl
@[simp] theorem startTransfer_fault (d : HostOp) (a n : Word) (s : State) : (startTransfer d a n s).fault = s.fault := rfl
@[simp] theorem startTransfer_bb (d : HostOp) (a n : Word) (s : State) : (startTransfer d a n s).bb = [] := rfl
@[simp] theorem startTransfer_hb (d : HostOp) (a n : Word) (s : State) : (startTransfer d a n s).hb = s.hb := rfl
@[simp] theorem startTransfer_hbFill (d : HostOp) (a n : Word) (s : State) : (startTransfer d a n s).hbFill = s.hbFill := rfl
@[simp] theorem startTransfer_hbCapacity (d : HostOp) (a n : Word) (s : State) : (startTransfer d a n s).hbCapacity = s.hbCapacity := rfl
@[simp] theorem startTransfer_requests (d : HostOp) (a n : Word) (s : State) : (startTransfer d a n s).requests = s.requests := rfl
@[simp] theorem startTransfer_answers (d : HostOp) (a n : Word) (s : State) : (startTransfer d a n s).answers = s.answers := rfl
@[simp] theorem startTransfer_trace (d : HostOp) (a n : Word) (s : State) : (startTransfer d a n s).trace = s.trace := rfl
@[simp] theorem startTransfer_adec (d : HostOp) (a n : Word) (s : State) : (startTransfer d a n s).adec = s.adec := rfl
@[simp] theorem startTransfer_dceWord (d : HostOp) (a n : Word) (s : State) : (startTransfer d a n s).dceWord = s.dceWord := rfl

/-! ### advance -/

@[simp] theorem advance_cfg (s : State) : (advance s).cfg = s.cfg := rfl
@[simp] theorem advance_phase (s : State) : (advance s).phase = s.phase := rfl
@[simp] theorem advance_op (s : State) : (advance s).op = s.op := rfl
@[simp] theorem advance_drum (s : State) : (advance s).drum = s.drum := rfl
@[simp] theorem advance_block (s : State) : (advance s).block = s.block := rfl
@[simp] theorem advance_byteOffset (s : State) : (advance s).byteOffset = s.byteOffset := rfl
@[simp] theorem advance_firstBlock (s : State) : (advance s).firstBlock = s.firstBlock := rfl
@[simp] theorem advance_first (s : State) : (advance s).first = s.first := rfl
@[simp] theorem advance_cursor (s : State) : (advance s).cursor = s.cursor + 1 := rfl
@[simp] theorem advance_transferred (s : State) : (advance s).transferred = s.transferred + 1 := rfl
@[simp] theorem advance_length (s : State) : (advance s).length = s.length := rfl
@[simp] theorem advance_result (s : State) : (advance s).result = s.result := rfl
@[simp] theorem advance_fault (s : State) : (advance s).fault = s.fault := rfl
@[simp] theorem advance_bb (s : State) : (advance s).bb = s.bb := rfl
@[simp] theorem advance_hb (s : State) : (advance s).hb = s.hb := rfl
@[simp] theorem advance_hbFill (s : State) : (advance s).hbFill = s.hbFill := rfl
@[simp] theorem advance_hbCapacity (s : State) : (advance s).hbCapacity = s.hbCapacity := rfl
@[simp] theorem advance_requests (s : State) : (advance s).requests = s.requests := rfl
@[simp] theorem advance_answers (s : State) : (advance s).answers = s.answers := rfl
@[simp] theorem advance_trace (s : State) : (advance s).trace = s.trace := rfl
@[simp] theorem advance_adec (s : State) : (advance s).adec = s.adec := rfl
@[simp] theorem advance_dceWord (s : State) : (advance s).dceWord = s.dceWord := rfl

/-! ### cursorAtOffset -/

@[simp] theorem cursorAtOffset_cfg (s : State) : (cursorAtOffset s).cfg = s.cfg := rfl
@[simp] theorem cursorAtOffset_phase (s : State) : (cursorAtOffset s).phase = s.phase := rfl
@[simp] theorem cursorAtOffset_op (s : State) : (cursorAtOffset s).op = s.op := rfl
@[simp] theorem cursorAtOffset_drum (s : State) : (cursorAtOffset s).drum = s.drum := rfl
@[simp] theorem cursorAtOffset_block (s : State) : (cursorAtOffset s).block = s.block := rfl
@[simp] theorem cursorAtOffset_byteOffset (s : State) : (cursorAtOffset s).byteOffset = s.byteOffset := rfl
@[simp] theorem cursorAtOffset_firstBlock (s : State) : (cursorAtOffset s).firstBlock = s.firstBlock := rfl
@[simp] theorem cursorAtOffset_first (s : State) : (cursorAtOffset s).first = s.first := rfl
@[simp] theorem cursorAtOffset_cursor (s : State) : (cursorAtOffset s).cursor = s.byteOffset.setWidth 9 := rfl
@[simp] theorem cursorAtOffset_transferred (s : State) : (cursorAtOffset s).transferred = s.transferred := rfl
@[simp] theorem cursorAtOffset_length (s : State) : (cursorAtOffset s).length = s.length := rfl
@[simp] theorem cursorAtOffset_result (s : State) : (cursorAtOffset s).result = s.result := rfl
@[simp] theorem cursorAtOffset_fault (s : State) : (cursorAtOffset s).fault = s.fault := rfl
@[simp] theorem cursorAtOffset_bb (s : State) : (cursorAtOffset s).bb = s.bb := rfl
@[simp] theorem cursorAtOffset_hb (s : State) : (cursorAtOffset s).hb = s.hb := rfl
@[simp] theorem cursorAtOffset_hbFill (s : State) : (cursorAtOffset s).hbFill = s.hbFill := rfl
@[simp] theorem cursorAtOffset_hbCapacity (s : State) : (cursorAtOffset s).hbCapacity = s.hbCapacity := rfl
@[simp] theorem cursorAtOffset_requests (s : State) : (cursorAtOffset s).requests = s.requests := rfl
@[simp] theorem cursorAtOffset_answers (s : State) : (cursorAtOffset s).answers = s.answers := rfl
@[simp] theorem cursorAtOffset_trace (s : State) : (cursorAtOffset s).trace = s.trace := rfl
@[simp] theorem cursorAtOffset_adec (s : State) : (cursorAtOffset s).adec = s.adec := rfl
@[simp] theorem cursorAtOffset_dceWord (s : State) : (cursorAtOffset s).dceWord = s.dceWord := rfl

/-! ### cursorAtZero -/

@[simp] theorem cursorAtZero_cfg (s : State) : (cursorAtZero s).cfg = s.cfg := rfl
@[simp] theorem cursorAtZero_phase (s : State) : (cursorAtZero s).phase = s.phase := rfl
@[simp] theorem cursorAtZero_op (s : State) : (cursorAtZero s).op = s.op := rfl
@[simp] theorem cursorAtZero_drum (s : State) : (cursorAtZero s).drum = s.drum := rfl
@[simp] theorem cursorAtZero_block (s : State) : (cursorAtZero s).block = s.block := rfl
@[simp] theorem cursorAtZero_byteOffset (s : State) : (cursorAtZero s).byteOffset = s.byteOffset := rfl
@[simp] theorem cursorAtZero_firstBlock (s : State) : (cursorAtZero s).firstBlock = s.firstBlock := rfl
@[simp] theorem cursorAtZero_first (s : State) : (cursorAtZero s).first = s.first := rfl
@[simp] theorem cursorAtZero_cursor (s : State) : (cursorAtZero s).cursor = 0 := rfl
@[simp] theorem cursorAtZero_transferred (s : State) : (cursorAtZero s).transferred = s.transferred := rfl
@[simp] theorem cursorAtZero_length (s : State) : (cursorAtZero s).length = s.length := rfl
@[simp] theorem cursorAtZero_result (s : State) : (cursorAtZero s).result = s.result := rfl
@[simp] theorem cursorAtZero_fault (s : State) : (cursorAtZero s).fault = s.fault := rfl
@[simp] theorem cursorAtZero_bb (s : State) : (cursorAtZero s).bb = s.bb := rfl
@[simp] theorem cursorAtZero_hb (s : State) : (cursorAtZero s).hb = s.hb := rfl
@[simp] theorem cursorAtZero_hbFill (s : State) : (cursorAtZero s).hbFill = s.hbFill := rfl
@[simp] theorem cursorAtZero_hbCapacity (s : State) : (cursorAtZero s).hbCapacity = s.hbCapacity := rfl
@[simp] theorem cursorAtZero_requests (s : State) : (cursorAtZero s).requests = s.requests := rfl
@[simp] theorem cursorAtZero_answers (s : State) : (cursorAtZero s).answers = s.answers := rfl
@[simp] theorem cursorAtZero_trace (s : State) : (cursorAtZero s).trace = s.trace := rfl
@[simp] theorem cursorAtZero_adec (s : State) : (cursorAtZero s).adec = s.adec := rfl
@[simp] theorem cursorAtZero_dceWord (s : State) : (cursorAtZero s).dceWord = s.dceWord := rfl

/-! ### rollOver -/

@[simp] theorem rollOver_cfg (s : State) : (rollOver s).cfg = s.cfg := rfl
@[simp] theorem rollOver_phase (s : State) : (rollOver s).phase = s.phase := rfl
@[simp] theorem rollOver_op (s : State) : (rollOver s).op = s.op := rfl
@[simp] theorem rollOver_drum (s : State) : (rollOver s).drum = s.drum + 1 := rfl
@[simp] theorem rollOver_block (s : State) : (rollOver s).block = 0 := rfl
@[simp] theorem rollOver_byteOffset (s : State) : (rollOver s).byteOffset = s.byteOffset := rfl
@[simp] theorem rollOver_firstBlock (s : State) : (rollOver s).firstBlock = s.firstBlock := rfl
@[simp] theorem rollOver_first (s : State) : (rollOver s).first = s.first := rfl
@[simp] theorem rollOver_cursor (s : State) : (rollOver s).cursor = s.cursor := rfl
@[simp] theorem rollOver_transferred (s : State) : (rollOver s).transferred = s.transferred := rfl
@[simp] theorem rollOver_length (s : State) : (rollOver s).length = s.length := rfl
@[simp] theorem rollOver_result (s : State) : (rollOver s).result = s.result := rfl
@[simp] theorem rollOver_fault (s : State) : (rollOver s).fault = s.fault := rfl
@[simp] theorem rollOver_bb (s : State) : (rollOver s).bb = s.bb := rfl
@[simp] theorem rollOver_hb (s : State) : (rollOver s).hb = s.hb := rfl
@[simp] theorem rollOver_hbFill (s : State) : (rollOver s).hbFill = s.hbFill := rfl
@[simp] theorem rollOver_hbCapacity (s : State) : (rollOver s).hbCapacity = s.hbCapacity := rfl
@[simp] theorem rollOver_requests (s : State) : (rollOver s).requests = s.requests := rfl
@[simp] theorem rollOver_answers (s : State) : (rollOver s).answers = s.answers := rfl
@[simp] theorem rollOver_trace (s : State) : (rollOver s).trace = s.trace := rfl
@[simp] theorem rollOver_adec (s : State) : (rollOver s).adec = s.adec := rfl
@[simp] theorem rollOver_dceWord (s : State) : (rollOver s).dceWord = s.dceWord := rfl

/-! ### nextBlock -/

@[simp] theorem nextBlock_cfg (s : State) : (nextBlock s).cfg = s.cfg := rfl
@[simp] theorem nextBlock_phase (s : State) : (nextBlock s).phase = s.phase := rfl
@[simp] theorem nextBlock_op (s : State) : (nextBlock s).op = s.op := rfl
@[simp] theorem nextBlock_drum (s : State) : (nextBlock s).drum = s.drum := rfl
@[simp] theorem nextBlock_block (s : State) : (nextBlock s).block = s.block + 1 := rfl
@[simp] theorem nextBlock_byteOffset (s : State) : (nextBlock s).byteOffset = s.byteOffset := rfl
@[simp] theorem nextBlock_firstBlock (s : State) : (nextBlock s).firstBlock = s.firstBlock := rfl
@[simp] theorem nextBlock_first (s : State) : (nextBlock s).first = s.first := rfl
@[simp] theorem nextBlock_cursor (s : State) : (nextBlock s).cursor = s.cursor := rfl
@[simp] theorem nextBlock_transferred (s : State) : (nextBlock s).transferred = s.transferred := rfl
@[simp] theorem nextBlock_length (s : State) : (nextBlock s).length = s.length := rfl
@[simp] theorem nextBlock_result (s : State) : (nextBlock s).result = s.result := rfl
@[simp] theorem nextBlock_fault (s : State) : (nextBlock s).fault = s.fault := rfl
@[simp] theorem nextBlock_bb (s : State) : (nextBlock s).bb = s.bb := rfl
@[simp] theorem nextBlock_hb (s : State) : (nextBlock s).hb = s.hb := rfl
@[simp] theorem nextBlock_hbFill (s : State) : (nextBlock s).hbFill = s.hbFill := rfl
@[simp] theorem nextBlock_hbCapacity (s : State) : (nextBlock s).hbCapacity = s.hbCapacity := rfl
@[simp] theorem nextBlock_requests (s : State) : (nextBlock s).requests = s.requests := rfl
@[simp] theorem nextBlock_answers (s : State) : (nextBlock s).answers = s.answers := rfl
@[simp] theorem nextBlock_trace (s : State) : (nextBlock s).trace = s.trace := rfl
@[simp] theorem nextBlock_adec (s : State) : (nextBlock s).adec = s.adec := rfl
@[simp] theorem nextBlock_dceWord (s : State) : (nextBlock s).dceWord = s.dceWord := rfl

/-! ### clearFirst -/

@[simp] theorem clearFirst_cfg (s : State) : (clearFirst s).cfg = s.cfg := rfl
@[simp] theorem clearFirst_phase (s : State) : (clearFirst s).phase = s.phase := rfl
@[simp] theorem clearFirst_op (s : State) : (clearFirst s).op = s.op := rfl
@[simp] theorem clearFirst_drum (s : State) : (clearFirst s).drum = s.drum := rfl
@[simp] theorem clearFirst_block (s : State) : (clearFirst s).block = s.block := rfl
@[simp] theorem clearFirst_byteOffset (s : State) : (clearFirst s).byteOffset = s.byteOffset := rfl
@[simp] theorem clearFirst_firstBlock (s : State) : (clearFirst s).firstBlock = s.firstBlock := rfl
@[simp] theorem clearFirst_first (s : State) : (clearFirst s).first = false := rfl
@[simp] theorem clearFirst_cursor (s : State) : (clearFirst s).cursor = s.cursor := rfl
@[simp] theorem clearFirst_transferred (s : State) : (clearFirst s).transferred = s.transferred := rfl
@[simp] theorem clearFirst_length (s : State) : (clearFirst s).length = s.length := rfl
@[simp] theorem clearFirst_result (s : State) : (clearFirst s).result = s.result := rfl
@[simp] theorem clearFirst_fault (s : State) : (clearFirst s).fault = s.fault := rfl
@[simp] theorem clearFirst_bb (s : State) : (clearFirst s).bb = s.bb := rfl
@[simp] theorem clearFirst_hb (s : State) : (clearFirst s).hb = s.hb := rfl
@[simp] theorem clearFirst_hbFill (s : State) : (clearFirst s).hbFill = s.hbFill := rfl
@[simp] theorem clearFirst_hbCapacity (s : State) : (clearFirst s).hbCapacity = s.hbCapacity := rfl
@[simp] theorem clearFirst_requests (s : State) : (clearFirst s).requests = s.requests := rfl
@[simp] theorem clearFirst_answers (s : State) : (clearFirst s).answers = s.answers := rfl
@[simp] theorem clearFirst_trace (s : State) : (clearFirst s).trace = s.trace := rfl
@[simp] theorem clearFirst_adec (s : State) : (clearFirst s).adec = s.adec := rfl
@[simp] theorem clearFirst_dceWord (s : State) : (clearFirst s).dceWord = s.dceWord := rfl

/-! ### withoutRequest -/

@[simp] theorem withoutRequest_cfg (s : State) : (withoutRequest s).cfg = s.cfg := rfl
@[simp] theorem withoutRequest_phase (s : State) : (withoutRequest s).phase = s.phase := rfl
@[simp] theorem withoutRequest_op (s : State) : (withoutRequest s).op = s.op := rfl
@[simp] theorem withoutRequest_drum (s : State) : (withoutRequest s).drum = s.drum := rfl
@[simp] theorem withoutRequest_block (s : State) : (withoutRequest s).block = s.block := rfl
@[simp] theorem withoutRequest_byteOffset (s : State) : (withoutRequest s).byteOffset = s.byteOffset := rfl
@[simp] theorem withoutRequest_firstBlock (s : State) : (withoutRequest s).firstBlock = s.firstBlock := rfl
@[simp] theorem withoutRequest_first (s : State) : (withoutRequest s).first = s.first := rfl
@[simp] theorem withoutRequest_cursor (s : State) : (withoutRequest s).cursor = s.cursor := rfl
@[simp] theorem withoutRequest_transferred (s : State) : (withoutRequest s).transferred = s.transferred := rfl
@[simp] theorem withoutRequest_length (s : State) : (withoutRequest s).length = s.length := rfl
@[simp] theorem withoutRequest_result (s : State) : (withoutRequest s).result = s.result := rfl
@[simp] theorem withoutRequest_fault (s : State) : (withoutRequest s).fault = s.fault := rfl
@[simp] theorem withoutRequest_bb (s : State) : (withoutRequest s).bb = s.bb := rfl
@[simp] theorem withoutRequest_hb (s : State) : (withoutRequest s).hb = s.hb := rfl
@[simp] theorem withoutRequest_hbFill (s : State) : (withoutRequest s).hbFill = s.hbFill := rfl
@[simp] theorem withoutRequest_hbCapacity (s : State) : (withoutRequest s).hbCapacity = s.hbCapacity := rfl
@[simp] theorem withoutRequest_requests (s : State) : (withoutRequest s).requests = s.requests.tail := rfl
@[simp] theorem withoutRequest_answers (s : State) : (withoutRequest s).answers = s.answers := rfl
@[simp] theorem withoutRequest_trace (s : State) : (withoutRequest s).trace = s.trace := rfl
@[simp] theorem withoutRequest_adec (s : State) : (withoutRequest s).adec = s.adec := rfl
@[simp] theorem withoutRequest_dceWord (s : State) : (withoutRequest s).dceWord = s.dceWord := rfl

/-! ### presentNext -/

@[simp] theorem presentNext_cfg (r : Request) (s : State) : (presentNext r s).cfg = s.cfg := rfl
@[simp] theorem presentNext_phase (r : Request) (s : State) : (presentNext r s).phase = .idle := rfl
@[simp] theorem presentNext_op (r : Request) (s : State) : (presentNext r s).op = s.op := rfl
@[simp] theorem presentNext_drum (r : Request) (s : State) : (presentNext r s).drum = s.drum := rfl
@[simp] theorem presentNext_block (r : Request) (s : State) : (presentNext r s).block = s.block := rfl
@[simp] theorem presentNext_byteOffset (r : Request) (s : State) : (presentNext r s).byteOffset = s.byteOffset := rfl
@[simp] theorem presentNext_firstBlock (r : Request) (s : State) : (presentNext r s).firstBlock = s.firstBlock := rfl
@[simp] theorem presentNext_first (r : Request) (s : State) : (presentNext r s).first = s.first := rfl
@[simp] theorem presentNext_cursor (r : Request) (s : State) : (presentNext r s).cursor = s.cursor := rfl
@[simp] theorem presentNext_transferred (r : Request) (s : State) : (presentNext r s).transferred = s.transferred := rfl
@[simp] theorem presentNext_length (r : Request) (s : State) : (presentNext r s).length = s.length := rfl
@[simp] theorem presentNext_result (r : Request) (s : State) : (presentNext r s).result = s.result := rfl
@[simp] theorem presentNext_fault (r : Request) (s : State) : (presentNext r s).fault = false := rfl
@[simp] theorem presentNext_bb (r : Request) (s : State) : (presentNext r s).bb = s.bb := rfl
@[simp] theorem presentNext_hb (r : Request) (s : State) : (presentNext r s).hb = s.hb := rfl
@[simp] theorem presentNext_hbFill (r : Request) (s : State) : (presentNext r s).hbFill = s.hbFill := rfl
@[simp] theorem presentNext_hbCapacity (r : Request) (s : State) : (presentNext r s).hbCapacity = s.hbCapacity := rfl
@[simp] theorem presentNext_requests (r : Request) (s : State) : (presentNext r s).requests = r :: s.requests := rfl
@[simp] theorem presentNext_answers (r : Request) (s : State) : (presentNext r s).answers = s.answers := rfl
@[simp] theorem presentNext_trace (r : Request) (s : State) : (presentNext r s).trace = s.trace := rfl
@[simp] theorem presentNext_adec (r : Request) (s : State) : (presentNext r s).adec = s.adec := rfl
@[simp] theorem presentNext_dceWord (r : Request) (s : State) : (presentNext r s).dceWord = s.dceWord := rfl

end Sys2Proof.Machine
end

