-- ==== Sys2Proof/Laws/Flags.lean ====
section
/-! SUPPORT. The conditions the block tests, as arithmetic. -/

namespace Sys2Proof.Machine

theorem moreToMove_iff (s : State) : moreToMove s = true ↔ s.transferred.toNat < s.length.toNat := by
  simp [moreToMove]

theorem not_moreToMove_iff (s : State) : moreToMove s = false ↔ s.length.toNat ≤ s.transferred.toNat := by
  simp [moreToMove]

theorem roomInBlock_iff (s : State) : roomInBlock s = true ↔ s.cursor.toNat < 256 :=
  decide_eq_true_iff

theorem not_roomInBlock_iff (s : State) : roomInBlock s = false ↔ 256 ≤ s.cursor.toNat :=
  decide_eq_false_iff_not.trans Nat.not_lt

theorem inRange_iff (s : State) :
    inRange s = true ↔ s.drum.toNat < s.cfg.maxDrumCount ∧ s.block.toNat ≤ s.cfg.maxBlockId := by
  simp [inRange]

theorem not_inRange_iff (s : State) :
    inRange s = false ↔ s.cfg.maxDrumCount ≤ s.drum.toNat ∨ s.cfg.maxBlockId < s.block.toNat := by
  simp [inRange, imp_iff_not_or]

theorem rolloverDue_iff (s : State) : rolloverDue s = true ↔ s.cfg.rolloverThreshold ≤ s.block.toNat := by
  simp [rolloverDue]

theorem not_rolloverDue_iff (s : State) : rolloverDue s = false ↔ s.block.toNat < s.cfg.rolloverThreshold := by
  simp [rolloverDue]

/-- With FIRST_TEST = flag the test is the flag (R162). -/
theorem isFirstIteration_flag {s : State} (h : s.cfg.firstTest = .flag) : isFirstIteration s = s.first := by
  simp [isFirstIteration, h]

/-- The status is failed iff it is negative as a signed number (44_device_primitive.md R203). -/
theorem statusFailed_iff (w : Word) : statusFailed w = true ↔ w.toInt < 0 := by
  simp [statusFailed, BitVec.msb_eq_toInt]

theorem not_statusFailed_iff (w : Word) : statusFailed w = false ↔ 0 ≤ w.toInt := by
  rw [← Bool.not_eq_true, statusFailed_iff, not_lt]

/-- The loop test depends on the two counters only. -/
theorem moreToMove_congr {s t : State} (h1 : t.transferred = s.transferred) (h2 : t.length = s.length) :
    moreToMove t = moreToMove s := by
  simp [moreToMove, h1, h2]

/-- The range check depends on the position and the bounds only. -/
theorem inRange_congr {s t : State} (h1 : t.drum = s.drum) (h2 : t.block = s.block) (h3 : t.cfg = s.cfg) :
    inRange t = inRange s := by
  simp [inRange, h1, h2, h3]

end Sys2Proof.Machine
end

