-- ==== Sys2Proof/Laws/Memory.lean ====
section
/-! SUPPORT. The byte memories: a read after a write, and the canonical form, which every memory operation keeps. -/

namespace Sys2Proof.Machine

/-! ### Reading after writing -/

theorem memRead_memWrite_same (m : Memory) (i : Nat) (v : Byte) : memRead (memWrite m i v) i = some v := by
  induction m with
  | nil => simp [memWrite, memRead]
  | cons c m ih =>
    obtain ⟨a, b⟩ := c
    simp only [memWrite]
    split
    · simp [memRead]
    · split
      · simp [memRead]
      · rename_i h1 h2
        simp [memRead, Ne.symm h2, ih]

theorem memRead_memWrite_other (m : Memory) {i j : Nat} (v : Byte) (h : j ≠ i) :
    memRead (memWrite m i v) j = memRead m j := by
  induction m with
  | nil => simp [memWrite, memRead, h.symm]
  | cons c m ih =>
    obtain ⟨a, b⟩ := c
    simp only [memWrite]
    split
    · simp [memRead, h.symm]
    · split
      · rename_i h1 h2
        subst h2
        simp [memRead, h.symm]
      · simp [memRead, ih]

/-- What a write does to every read. -/
theorem memRead_memWrite (m : Memory) (i j : Nat) (v : Byte) :
    memRead (memWrite m i v) j = if j = i then some v else memRead m j := by
  split
  · next h => subst h; exact memRead_memWrite_same m j v
  · next h => exact memRead_memWrite_other m v h

/-! ### The canonical form -/

theorem memWfFrom_le {n k : Nat} {m : Memory} (hk : k ≤ n) (h : memWfFrom n m = true) : memWfFrom k m = true := by
  cases m with
  | nil => rfl
  | cons c m =>
    obtain ⟨a, b⟩ := c
    simp only [memWfFrom, Bool.and_eq_true, decide_eq_true_eq] at h ⊢
    exact ⟨le_trans hk h.1, h.2⟩

theorem memWfFrom_memWrite {n i : Nat} {m : Memory} (v : Byte) (hi : n ≤ i) (h : memWfFrom n m = true) :
    memWfFrom n (memWrite m i v) = true := by
  induction m generalizing n with
  | nil => simp [memWrite, memWfFrom, hi]
  | cons c m ih =>
    obtain ⟨a, b⟩ := c
    simp only [memWfFrom, Bool.and_eq_true, decide_eq_true_eq] at h
    simp only [memWrite]
    split
    · next hlt =>
      simp only [memWfFrom, Bool.and_eq_true, decide_eq_true_eq]
      exact ⟨hi, by omega, h.2⟩
    · split
      · next hge heq =>
        subst heq
        simp only [memWfFrom, Bool.and_eq_true, decide_eq_true_eq]
        exact ⟨hi, h.2⟩
      · next hge hne =>
        simp only [memWfFrom, Bool.and_eq_true, decide_eq_true_eq]
        exact ⟨h.1, ih (by omega) h.2⟩

/-- A write keeps the canonical form. -/
theorem memWrite_wf {m : Memory} (i : Nat) (v : Byte) (h : Memory.wf m = true) : Memory.wf (memWrite m i v) = true :=
  memWfFrom_memWrite v (Nat.zero_le i) h

theorem memWfFrom_memOfBytes (n : Nat) (bs : List Byte) : memWfFrom n (memOfBytes n bs) = true := by
  induction bs generalizing n with
  | nil => rfl
  | cons b bs ih => simp [memOfBytes, memWfFrom, ih]

/-- Consecutive bytes are in canonical form. -/
theorem memOfBytes_wf (n : Nat) (bs : List Byte) : Memory.wf (memOfBytes n bs) = true :=
  memWfFrom_le (Nat.zero_le n) (memWfFrom_memOfBytes n bs)

/-- A buffer filled whole is in canonical form. -/
theorem filledBuffer_wf (d : BlockData) : Memory.wf (filledBuffer d) = true := memOfBytes_wf 0 _

/-- A memory with nothing listed is in canonical form. -/
theorem empty_wf : Memory.wf [] = true := rfl

/-- BB after a Submit is in canonical form if it was before. -/
theorem bufferAfter_wf (r : Option BlockData) {m : Memory} (h : Memory.wf m = true) :
    Memory.wf (bufferAfter r m) = true := by
  cases r with
  | none => exact h
  | some d => exact filledBuffer_wf d

/-- The memories of the reset state are in canonical form. -/
theorem reset_memories_wf : Memory.wf State.reset.bb = true ∧ Memory.wf State.reset.hb = true := ⟨rfl, rfl⟩

/-! ### Consecutive bytes -/

theorem memRead_memOfBytes_below {n i : Nat} (bs : List Byte) (h : i < n) : memRead (memOfBytes n bs) i = none := by
  induction bs generalizing n with
  | nil => rfl
  | cons b bs ih =>
    simp only [memOfBytes, memRead]
    rw [if_neg (by omega), ih (by omega)]

theorem memRead_memOfBytes (n i : Nat) (bs : List Byte) : memRead (memOfBytes n bs) (n + i) = bs[i]? := by
  induction bs generalizing n i with
  | nil => rfl
  | cons b bs ih =>
    cases i with
    | zero => simp [memOfBytes, memRead]
    | succ i =>
      have h := ih (n + 1) i
      simp only [memOfBytes, memRead]
      rw [if_neg (by omega), show n + (i + 1) = n + 1 + i from by omega, h]
      simp

/-- Byte `i` of a buffer filled whole. -/
theorem memRead_filledBuffer (d : BlockData) {i : Nat} (h : i < 256) : memRead (filledBuffer d) i = some d[i] := by
  have := memRead_memOfBytes 0 i d.toList
  simp only [Nat.zero_add] at this
  rw [filledBuffer, this]
  simp [h]

theorem memRead_filledBuffer_out (d : BlockData) {i : Nat} (h : 256 ≤ i) : memRead (filledBuffer d) i = none := by
  have := memRead_memOfBytes 0 i d.toList
  simp only [Nat.zero_add] at this
  rw [filledBuffer, this]
  simp [h]

/-- A buffer tells which block filled it. -/
theorem filledBuffer_injective {d e : BlockData} (h : filledBuffer d = filledBuffer e) : d = e := by
  ext i hi
  have := (memRead_filledBuffer d hi).symm.trans ((congrArg (memRead · i) h).trans (memRead_filledBuffer e hi))
  simp_all

/-- Writing one of the bytes of a run of bytes. -/
theorem memWrite_memOfBytes (n i : Nat) (bs : List Byte) (v : Byte) (h : i < bs.length) :
    memWrite (memOfBytes n bs) (n + i) v = memOfBytes n (bs.set i v) := by
  induction bs generalizing n i with
  | nil => simp at h
  | cons b bs ih =>
    cases i with
    | zero => simp [memOfBytes, memWrite]
    | succ i =>
      have := ih (n + 1) i (by simpa using h)
      rw [show n + 1 + i = n + (i + 1) by omega] at this
      simp [memOfBytes, memWrite, this]

/-- Writing one byte of a filled buffer. -/
theorem memWrite_filledBuffer (d : BlockData) (i : Nat) (v : Byte) (h : i < 256) :
    memWrite (filledBuffer d) i v = filledBuffer (d.set i v) := by
  have := memWrite_memOfBytes 0 i d.toList v (by simpa using h)
  simpa [filledBuffer, Vector.toList_set] using this

end Sys2Proof.Machine
end

