-- ==== Sys2Proof/Laws/Ops.lean ====
section
/-! SUPPORT. Each shared operation: everything it can do, said once. -/

namespace Sys2Proof.Machine

/-- ENCODE: a word exactly when both parameters fit, and then the three fields side by side (R111, R113). -/
theorem encodeWord_cases (m : OpcMap) (k : OpKind) (a b : Word) :
    (a.toNat < 16 ∧ b.toNat < 4194304 ∧
      encodeWord m k a b = some (((m.code k).setWidth 32 <<< 26) ||| (a <<< 22) ||| b)) ∨
    (¬(a.toNat < 16 ∧ b.toNat < 4194304) ∧ encodeWord m k a b = none) := by
  have hf : (fitsParamA a && fitsParamB b) = true ↔ a.toNat < 16 ∧ b.toNat < 4194304 := by
    simp [fitsParamA, fitsParamB]
  by_cases h : a.toNat < 16 ∧ b.toNat < 4194304
  · exact .inl ⟨h.1, h.2, if_pos (hf.2 h)⟩
  · exact .inr ⟨h, if_neg fun h' => h (hf.1 h')⟩

/-- `issue`: the fault and nothing else, or one exchange and then what the sign of its status selects. -/
theorem issue_cases (k : OpKind) (a b : Word) (s : State) (good bad : State → State) :
    (encodeWord s.cfg.opc k a b = none ∧ issue k a b s good bad = enterFault s) ∨
    ∃ w, encodeWord s.cfg.opc k a b = some w ∧
      ((submitFailed w (bufferArg k s) s = true ∧ issue k a b s good bad = bad (submit w (bufferArg k s) s)) ∨
       (submitFailed w (bufferArg k s) s = false ∧ issue k a b s good bad = good (submit w (bufferArg k s) s))) := by
  unfold issue
  cases h : encodeWord s.cfg.opc k a b with
  | none => exact .inl ⟨rfl, rfl⟩
  | some w =>
    refine .inr ⟨w, rfl, ?_⟩
    cases hf : submitFailed w (bufferArg k s) s
    · exact .inr ⟨rfl, by simp [hf]⟩
    · exact .inl ⟨rfl, by simp [hf]⟩

/-- `issueThen`: the fault and nothing else, or one exchange and then what follows. -/
theorem issueThen_cases (k : OpKind) (a b : Word) (s : State) (after : State → State) :
    (encodeWord s.cfg.opc k a b = none ∧ issueThen k a b s after = enterFault s) ∨
    ∃ w, encodeWord s.cfg.opc k a b = some w ∧ issueThen k a b s after = after (submit w (bufferArg k s) s) := by
  unfold issueThen
  cases h : encodeWord s.cfg.opc k a b with
  | none => exact .inl ⟨rfl, rfl⟩
  | some w => exact .inr ⟨w, rfl, rfl⟩

/-- `issueInLoop` where the status is not looked at: the fault, or one exchange and the next phase (R175). -/
theorem issueInLoop_cases (k : OpKind) (a b : Word) (p : Phase) (s : State) (h : s.cfg.checkStatusInLoop = false) :
    (encodeWord s.cfg.opc k a b = none ∧ issueInLoop k a b p s = enterFault s) ∨
    ∃ w, encodeWord s.cfg.opc k a b = some w ∧ issueInLoop k a b p s = goto p (submit w (bufferArg k s) s) := by
  simpa [issueInLoop, h] using issueThen_cases k a b s (goto p)

/-- A device command that answers a next state: the fault, or one exchange. -/
theorem deviceCommand_cases {k : OpKind} {a b : Word} {s t : State} (h : deviceCommand k a b s = .next t) :
    isHalted s = false ∧
    ((encodeWord s.cfg.opc k a b = none ∧ t = enterFault s) ∨
     ∃ w, encodeWord s.cfg.opc k a b = some w ∧ t = submit w (bufferArg k s) s) := by
  unfold deviceCommand at h
  cases hh : isHalted s with
  | true => simp [hh] at h
  | false =>
    simp only [hh, Bool.false_eq_true, if_false, Host.Outcome.next.injEq] at h
    refine ⟨rfl, ?_⟩
    rcases issueThen_cases k a b s id with ⟨he, hi⟩ | ⟨w, he, hi⟩
    · exact .inl ⟨he, by rw [← h, hi]⟩
    · exact .inr ⟨w, he, by rw [← h, hi]; rfl⟩

/-- A request accepted: the block was idle and not faulted. -/
theorem acceptRequest_cases {s t : State} {start : State → State} (h : acceptRequest s start = .next t) :
    isHalted s = false ∧ s.phase = .idle ∧ t = start s := by
  unfold acceptRequest at h
  cases hh : isHalted s with
  | true => simp [hh] at h
  | false =>
    simp only [hh, Bool.false_eq_true, if_false] at h
    split at h
    · next hp => exact ⟨rfl, hp, by simpa using h.symm⟩
    · cases h

/-- READ or WRITE accepted: the block was idle and not faulted, and the caller's buffer is large enough. -/
theorem acceptTransfer_cases {d : HostOp} {a n : Word} {s t : State} (h : acceptTransfer d a n s = .next t) :
    isHalted s = false ∧ s.phase = .idle ∧ n.toNat ≤ s.hbCapacity ∧ t = startTransfer d a n s := by
  unfold acceptTransfer at h
  cases hh : isHalted s with
  | true => simp [hh] at h
  | false =>
    simp only [hh, Bool.false_eq_true, if_false] at h
    split at h
    · next hp =>
      split at h
      · next hc => exact ⟨rfl, hp, hc, by simpa using h.symm⟩
      · cases h
    · cases h

/-- A byte of HB that the state lists. -/
theorem hostByte_of_listed {s : State} {i : Nat} {v : Byte} (h : memRead s.hb i = some v) : hostByte s i = v := by
  simp [hostByte, h]

/-- The bytes of HB depend on the listed bytes and on `hbFill` only. -/
theorem hostByte_congr {s t : State} (h1 : t.hb = s.hb) (h2 : t.hbFill = s.hbFill) (i : Nat) :
    hostByte t i = hostByte s i := by
  simp [hostByte, h1, h2]

/-- The copy of one byte stops only in READ, at a byte of BB that holds no value. -/
theorem copyByte_stops {s : State} {f : Fault} (h : copyByte s = .fault f) :
    s.op = .read ∧ memRead s.bb s.cursor.toNat = none ∧ f = .unwrittenByte s.cursor.toNat := by
  unfold copyByte at h
  split at h
  · next ho =>
    split at h
    · next hv => exact ⟨ho, hv, by simpa using h.symm⟩
    · cases h
  all_goals cases h

/-- One byte copied: the byte moved in the direction of the operation, both counters advanced. -/
theorem copyByte_cases {s t : State} (h : copyByte s = .next t) :
    (s.op = .read ∧ ∃ v, memRead s.bb s.cursor.toNat = some v ∧
      t = advance { s with hb := memWrite s.hb s.transferred.toNat v }) ∨
    (s.op = .write ∧ t = advance { s with bb := memWrite s.bb s.cursor.toNat (hostByte s s.transferred.toNat) }) ∨
    ((s.op = .mount ∨ s.op = .unmount) ∧ t = advance s) := by
  unfold copyByte at h
  split at h
  · next ho =>
    split at h
    · cases h
    · next v hv => exact .inl ⟨ho, v, hv, by simpa using h.symm⟩
  · next ho => exact .inr (.inl ⟨ho, by simpa using h.symm⟩)
  · next ho => exact .inr (.inr ⟨.inl ho, by simpa using h.symm⟩)
  · next ho => exact .inr (.inr ⟨.inr ho, by simpa using h.symm⟩)

/-- A copy step: one byte copied, or the end of the inner loop (R169, R170). -/
theorem stepCopy_cases {s t : State} (h : stepCopy s = .next t) :
    (moreToMove s = true ∧ roomInBlock s = true ∧ copyByte s = .next t) ∨
    ((moreToMove s && roomInBlock s) = false ∧ t = goto (afterCopy s.op) s) := by
  unfold stepCopy at h
  split at h
  · next hc => exact .inl ⟨(Bool.and_eq_true _ _ ▸ hc).1, (Bool.and_eq_true _ _ ▸ hc).2, h⟩
  · next hc => exact .inr ⟨by simpa using hc, by simpa using h.symm⟩

end Sys2Proof.Machine
end

