-- ==== Sys2Proof/Laws/PerInstr.lean ====
section
/-! SUPPORT. Statements made once for each operation. EncodableIffWellFormed: an operation has an encoding exactly when
its operands fit their fields (30_encoding.md R88, 40_command_encoder.md R113). -/

namespace Sys2Proof.Laws

/-- The operation has an encoding exactly when it is well-formed, whatever OPC is. -/
def EncodableIffWellFormed.Statement (i : Instr) : Prop := ∀ m : OpcMap, (encode m i).isSome = i.wellFormed

theorem encodeWord_isSome (m : OpcMap) (k : OpKind) (a b : Word) :
    (encodeWord m k a b).isSome = (fitsParamA a && fitsParamB b) := by
  unfold encodeWord
  split <;> simp_all

theorem EncodableIffWellFormed.cmdMount : EncodableIffWellFormed.Statement .cmdMount := fun m => by
  simp [encode, Instr.wellFormed, encodeWord_isSome, fitsParamA, fitsParamB]

theorem EncodableIffWellFormed.cmdUnmount : EncodableIffWellFormed.Statement .cmdUnmount := fun m => by
  simp [encode, Instr.wellFormed, encodeWord_isSome, fitsParamA, fitsParamB]

theorem EncodableIffWellFormed.cmdFormatDrum (d b : Word) :
    EncodableIffWellFormed.Statement (.cmdFormatDrum d b) := fun m => by
  simp [encode, Instr.wellFormed, encodeWord_isSome]

theorem EncodableIffWellFormed.cmdSeekDrum (d : Word) :
    EncodableIffWellFormed.Statement (.cmdSeekDrum d) := fun m => by
  simp [encode, Instr.wellFormed, encodeWord_isSome, fitsParamB]

theorem EncodableIffWellFormed.cmdSeekBlock (b : Word) :
    EncodableIffWellFormed.Statement (.cmdSeekBlock b) := fun m => by
  simp [encode, Instr.wellFormed, encodeWord_isSome, fitsParamA]

theorem EncodableIffWellFormed.cmdDiskRead (d b : Word) :
    EncodableIffWellFormed.Statement (.cmdDiskRead d b) := fun m => by
  simp [encode, Instr.wellFormed, encodeWord_isSome]

theorem EncodableIffWellFormed.cmdDiskWrite (d b : Word) :
    EncodableIffWellFormed.Statement (.cmdDiskWrite d b) := fun m => by
  simp [encode, Instr.wellFormed, encodeWord_isSome]

theorem EncodableIffWellFormed.hostMount : EncodableIffWellFormed.Statement .hostMount := fun _ => rfl

theorem EncodableIffWellFormed.hostUnmount : EncodableIffWellFormed.Statement .hostUnmount := fun _ => rfl

theorem EncodableIffWellFormed.hostRead (a n : Word) : EncodableIffWellFormed.Statement (.hostRead a n) := fun _ => rfl

theorem EncodableIffWellFormed.hostWrite (a n : Word) : EncodableIffWellFormed.Statement (.hostWrite a n) := fun _ => rfl

theorem EncodableIffWellFormed.drumOf (a : Word) : EncodableIffWellFormed.Statement (.drumOf a) := fun _ => rfl

theorem EncodableIffWellFormed.blockOf (a : Word) : EncodableIffWellFormed.Statement (.blockOf a) := fun _ => rfl

theorem EncodableIffWellFormed.offsetOf (a : Word) : EncodableIffWellFormed.Statement (.offsetOf a) := fun _ => rfl

theorem EncodableIffWellFormed.decompose (a : Word) : EncodableIffWellFormed.Statement (.decompose a) := fun _ => rfl

theorem EncodableIffWellFormed.encode (k : OpKind) (a b : Word) :
    EncodableIffWellFormed.Statement (.encode k a b) := fun _ => rfl

end Sys2Proof.Laws
end

