-- ==== Sys2Proof/Laws/Step.lean ====
section
/-! SUPPORT. What one step can do: it is the step of the phase, and in IDLE the operation of the next request. -/

namespace Sys2Proof.Machine

/-- A step that answers a next state is the step of the phase, in a block that has not faulted. -/
theorem step_eq_phaseStep {s t : State} (h : step s = .next t) : isHalted s = false ∧ phaseStep s = .next t := by
  unfold step blockStep at h
  cases hh : isHalted s with
  | true => simp [hh] at h
  | false => exact ⟨rfl, by simpa [hh] using h⟩

/-- The step of a block that has not faulted. -/
theorem step_of_not_halted {s : State} (h : isHalted s = false) : step s = phaseStep s := by
  simp [step, blockStep, h]

/-- A block in any phase but FAULT whose fault flag is clear has not halted. -/
theorem not_halted_iff (s : State) : isHalted s = false ↔ s.fault = false ∧ s.phase ≠ .fault := by
  simp [isHalted]

/-- A step in IDLE that answers a next state: it waits, or it runs the operation of the next request. -/
theorem stepIdle_cases {s t : State} (h : stepIdle s = .next t) :
    (s.requests = [] ∧ t = s) ∨
    ∃ r rest i, s.requests = r :: rest ∧ decode s.cfg.opc r = .operation i ∧ exec i (withoutRequest s) = .next t := by
  unfold stepIdle at h
  cases hr : s.requests with
  | nil => exact .inl ⟨rfl, by simpa [hr] using h.symm⟩
  | cons r rest =>
    simp only [hr] at h
    cases hd : decode s.cfg.opc r with
    | rejected e => simp [hd, runDecoded] at h
    | operation i => exact .inr ⟨r, rest, i, rfl, hd, by simpa [hd, runDecoded] using h⟩

/-- Everything a step can do, phase by phase. -/
theorem step_cases {s t : State} (h : step s = .next t) :
    isHalted s = false ∧
    ((s.phase = .idle ∧ stepIdle s = .next t) ∨
     (s.phase = .lTest ∧ t = stepLTest s) ∨
     (s.phase = .validate ∧ t = stepValidate s) ∨
     (s.phase = .first ∧ t = stepFirst s) ∨
     (s.phase = .seekDrum ∧ t = stepSeekDrum s) ∨
     (s.phase = .seekBlock ∧ t = stepSeekBlock s) ∨
     (s.phase = .roll ∧ t = stepRoll s) ∨
     (s.phase = .dread ∧ t = stepDread s) ∨
     (s.phase = .inc ∧ t = stepInc s) ∨
     (s.phase = .copy ∧ stepCopy s = .next t) ∨
     (s.phase = .wbSeek ∧ t = stepWbSeek s) ∨
     (s.phase = .wbWrite ∧ t = stepWbWrite s) ∨
     (s.phase = .iterEnd ∧ t = stepIterEnd s) ∨
     (s.phase = .mMount ∧ t = stepMMount s) ∨
     (s.phase = .mFormat ∧ t = stepMFormat s) ∨
     (s.phase = .uUnmount ∧ t = stepUUnmount s)) := by
  obtain ⟨hh, hp⟩ := step_eq_phaseStep h
  refine ⟨hh, ?_⟩
  unfold phaseStep at hp
  cases hph : s.phase <;> simp_all [isHalted]

end Sys2Proof.Machine
end

