-- ==== Sys2Proof/Tests/Slice0.lean ====
section
/-! SUPPORT. Tests. Expected values come from spec/: the encodings of 30_encoding.md, the vectors of 95_test_vectors.md
(named by their ids), and small calculations by hand from the rules. The last part gives, for every statement with
hypotheses, a concrete case that meets them all. -/

namespace Sys2Proof.Tests
open Sys2Proof Sys2Proof.Machine

/-! ### WellFormed: each check refuses an ill-formed term (30_encoding.md R88) -/

theorem test_paramA_sixteen_is_ill_formed :
    (Instr.cmdSeekDrum 16).wellFormed = false ∧ (Instr.cmdFormatDrum 16 0).wellFormed = false ∧
    (Instr.cmdDiskRead 16 0).wellFormed = false ∧ (Instr.cmdDiskWrite 0xFFFFFFFF 0).wellFormed = false := by decide

theorem test_paramB_two_to_22_is_ill_formed :
    (Instr.cmdSeekBlock 0x400000).wellFormed = false ∧ (Instr.cmdFormatDrum 0 0x400000).wellFormed = false ∧
    (Instr.cmdDiskRead 0 0x400000).wellFormed = false ∧ (Instr.cmdDiskWrite 0 0x400000).wellFormed = false := by decide

theorem test_largest_parameters_are_well_formed :
    (Instr.cmdSeekDrum 15).wellFormed = true ∧ (Instr.cmdSeekBlock 0x3FFFFF).wellFormed = true ∧
    (Instr.cmdDiskWrite 15 0x3FFFFF).wellFormed = true := by decide

/-! ### Decode: a word of every row, written out from its encoding -/

theorem test_decode_Mount : decode .default (.command 0b000000_0000_0000000000000000000000) = .operation .cmdMount := by
  decide
theorem test_decode_Unmount :
    decode .default (.command 0b000001_0000_0000000000000000000000) = .operation .cmdUnmount := by decide
theorem test_decode_FormatDrum :
    decode .default (.command 0b000010_1001_0000000000000000000101) = .operation (.cmdFormatDrum 9 5) := by decide
theorem test_decode_SeekDrum :
    decode .default (.command 0b000011_0101_0000000000000000000000) = .operation (.cmdSeekDrum 5) := by decide
theorem test_decode_SeekBlock :
    decode .default (.command 0b000100_0000_0000000000000011111111) = .operation (.cmdSeekBlock 255) := by decide
theorem test_decode_DiskRead :
    decode .default (.command 0b000101_0011_0000000000000000000111) = .operation (.cmdDiskRead 3 7) := by decide
theorem test_decode_DiskWrite :
    decode .default (.command 0b000110_1111_0000000000000100000000) = .operation (.cmdDiskWrite 15 256) := by decide
theorem test_decode_host_operations :
    decode .default (.host 0b00 0 0) = .operation .hostMount ∧
    decode .default (.host 0b01 0 0) = .operation .hostUnmount ∧
    decode .default (.host 0b10 0x000000C8 100) = .operation (.hostRead 0x000000C8 100) ∧
    decode .default (.host 0b11 0x00020310 1) = .operation (.hostWrite 0x00020310 1) := by decide
theorem test_decode_address_functions :
    decode .default (.adec .drumOf 0x12345678) = .operation (.drumOf 0x12345678) ∧
    decode .default (.adec .blockOf 0x12345678) = .operation (.blockOf 0x12345678) ∧
    decode .default (.adec .offsetOf 0x12345678) = .operation (.offsetOf 0x12345678) ∧
    decode .default (.adec .decompose 0x12345678) = .operation (.decompose 0x12345678) := by decide
theorem test_decode_encode_inputs :
    decode .default (.dce 0b000101 15 0x3FFFFF) = .operation (.encode .diskRead 15 0x3FFFFF) := by decide

/-- 95_test_vectors.md section 2.2, the decode check: OpCode 7 is reserved (R89); R90: a non-zero unused field. -/
theorem test_words_that_are_no_command :
    decode .default (.command 0x1C000000) = .rejected (.reservedOpCode 7) ∧
    decode .default (.command 0xFC000000) = .rejected (.reservedOpCode 63) ∧
    decode .default (.command 0x00000001) = .rejected (.unusedFieldNotZero .mount) ∧
    decode .default (.command 0x0D400001) = .rejected (.unusedFieldNotZero .seekDrum) ∧
    decode .default (.command 0x10400000) = .rejected (.unusedFieldNotZero .seekBlock) := by decide

/-- The table's rows as the host numbers their bits. -/
theorem test_table_words :
    decodeTableWord 32 0x14C00007 = some (.cmdDiskRead 3 7) ∧ decodeTableWord 32 0x1C000000 = none ∧
    decodeTableWord 8 0 = some .hostMount ∧ decodeTableWord 8 1 = some .hostUnmount ∧
    decodeTableWord 8 2 = some (.hostRead 0 0) ∧ decodeTableWord 8 3 = some (.hostWrite 0 0) ∧
    decodeTableWord 8 4 = none := by decide

/-- Section 2.2: the encoder's words, one for each of the seven kinds, and the two overflows. -/
theorem test_encoder_words :
    encode .default .cmdMount = some (.command 0x00000000) ∧
    encode .default .cmdUnmount = some (.command 0x04000000) ∧
    encode .default (.cmdFormatDrum 0 0) = some (.command 0x08000000) ∧
    encode .default (.cmdSeekDrum 15) = some (.command 0x0FC00000) ∧
    encode .default (.cmdSeekBlock 0x3FFFFF) = some (.command 0x103FFFFF) ∧
    encode .default (.cmdDiskRead 15 0x3FFFFF) = some (.command 0x17FFFFFF) ∧
    encode .default (.cmdDiskWrite 1 2) = some (.command 0x18400002) ∧
    encode .default (.cmdSeekDrum 16) = none ∧ encode .default (.cmdDiskRead 0 0x400000) = none := by decide

/-! ### Steps -/

/-- One block of a byte. -/
def blockOfByte (v : Byte) : BlockData := Vector.replicate 256 v

/-- An answer with a status and a block of zeros. -/
def answerOf (status : Word) : Answer := { status, buffer := blockOfByte 0 }

/-- A state in a phase of an operation that moves two bytes at drum 1, block 2, offset 255, in CFG-A. -/
def atPhase (p : Phase) (o : HostOp) : State :=
  { State.reset with
    phase := p, op := o, drum := 1, block := 2, byteOffset := 255, firstBlock := 2, length := 2
    hb := [(0, 0xAA), (1, 0xBB)], answers := [answerOf 0, answerOf 0] }

/-- The state an outcome holds, the reset state where it holds none. -/
def stateOf : Host.Outcome State Fault Refusal → State
  | .next s => s
  | .fault _ => .reset
  | .refused _ => .reset

/-- The outcome holds a state. -/
def isNext : Host.Outcome State Fault Refusal → Bool
  | .next _ => true
  | .fault _ => false
  | .refused _ => false

theorem next_of_isNext {o : Host.Outcome State Fault Refusal} (h : isNext o = true) : o = .next (stateOf o) := by
  cases o <;> simp_all [isNext, stateOf]

/-- The words a state's trace holds. -/
def words (s : State) : List Word := s.trace.map Exchange.word

/-- Section 2.1, row 0x12345678, and the row with bit 31 (the shift is logical). -/
theorem test_decomposer :
    (stateOf (exec (.decompose 0x12345678) .reset)).adec = ⟨0x1234, 0x56, 0x78⟩ ∧
    (stateOf (exec (.drumOf 0x80000000) .reset)).adec.drum = 0x8000 ∧
    (stateOf (exec (.blockOf 0xABCD00EF) .reset)).adec.block = 0 ∧
    (stateOf (exec (.offsetOf 0xABCD00EF) .reset)).adec.offset = 0xEF := by decide

/-- Section 2.2: ENCODE(DiskRead, 3, 7), and ENCODE(SeekDrum, 16, 0). -/
theorem test_encode :
    (stateOf (exec (.encode .diskRead 3 7) .reset)).dceWord = 0x14C00007 ∧
    (stateOf (exec (.encode .seekDrum 16 0) .reset)).phase = .fault ∧
    (stateOf (exec (.encode .seekDrum 16 0) .reset)).fault = true := by decide

/-- The word each device command hands over, from section 2.2. -/
theorem test_command_words :
    words (stateOf (exec .cmdMount (atPhase .idle .read))) = [0x00000000] ∧
    words (stateOf (exec .cmdUnmount (atPhase .idle .read))) = [0x04000000] ∧
    words (stateOf (exec (.cmdFormatDrum 0 0) (atPhase .idle .read))) = [0x08000000] ∧
    words (stateOf (exec (.cmdSeekDrum 5) (atPhase .idle .read))) = [0x0D400000] ∧
    words (stateOf (exec (.cmdSeekBlock 255) (atPhase .idle .read))) = [0x100000FF] ∧
    words (stateOf (exec (.cmdDiskRead 3 7) (atPhase .idle .read))) = [0x14C00007] ∧
    words (stateOf (exec (.cmdDiskWrite 15 256) (atPhase .idle .read))) = [0x1BC00100] := by decide

/-- M2: Mount rejected. No FormatDrum, MountFailure. -/
theorem test_mount_rejected :
    let t := stateOf (step { atPhase .mMount .mount with answers := [answerOf 0xFFFFFFFF] })
    words t = [0x00000000] ∧ t.result = .mountFailure ∧ t.phase = .idle := by decide

/-- M3: FormatDrum rejected, still OK. -/
theorem test_format_rejected :
    let t := stateOf (step { atPhase .mFormat .mount with answers := [answerOf 0xFFFFFFFF] })
    words t = [0x08000000] ∧ t.result = .ok ∧ t.phase = .idle := by decide

/-- M5: Unmount rejected. -/
theorem test_unmount_rejected :
    let t := stateOf (step { atPhase .uUnmount .unmount with answers := [answerOf 0x80000000] })
    words t = [0x04000000] ∧ t.result = .unmountFailure := by decide

/-- R155: the start of `read(0x000102C8, 57)`, Q6's address. -/
theorem test_read_start :
    let t := stateOf (exec (.hostRead 0x000102C8 57) .reset)
    t.op = .read ∧ t.drum = 1 ∧ t.block = 2 ∧ t.byteOffset = 200 ∧ t.firstBlock = 2 ∧ t.first = true ∧
    t.length = 57 ∧ t.phase = .lTest := by decide

/-- R154: a caller's buffer one byte short. -/
theorem test_write_short_buffer :
    exec (.hostWrite 0 2) { State.reset with hbCapacity := 1 } = .refused .bufferTooShort := by rfl

/-- Q2 and Q3 at the range check: drum 16 of 16, block 128 above 127; Q4: block 127 passes. -/
theorem test_range_check :
    (stateOf (step { atPhase .validate .read with drum := 16 })).result = .addressOutOfRange ∧
    (stateOf (step { atPhase .validate .read with cfg := .cfgC, block := 128 })).result = .addressOutOfRange ∧
    (stateOf (step { atPhase .validate .read with cfg := .cfgC, block := 127 })).phase = .first := by decide

/-- Q12 at the rollover: block 256 of drum 0 in CFG-B. -/
theorem test_rollover :
    let t := stateOf (step { atPhase .roll .read with cfg := .cfgB, drum := 0, block := 256 })
    words t = [0x0C400000] ∧ t.drum = 1 ∧ t.block = 0 ∧ t.phase = .dread := by decide

/-- Q15: rollover out of drum 15 faults, with nothing submitted. -/
theorem test_rollover_overflow :
    let t := stateOf (step { atPhase .roll .read with cfg := .cfgE, drum := 15, block := 256 })
    words t = [] ∧ t.drum = 16 ∧ t.block = 0 ∧ t.phase = .fault ∧ t.fault = true := by decide

/-- Q16: at iteration 257 `block` is `first_block` again, and with the flag `cursor` is 0; the variant U3 differs. -/
theorem test_first_test :
    (stateOf (step { atPhase .first .read with first := false })).cursor = 0 ∧
    (stateOf (step { atPhase .first .read with
      first := false, cfg := { Config.cfgB with firstTest := .compare } })).cursor = 255 := by decide

/-- S1, steps 8 and 9: SeekBlock(block - 1), then DiskWrite one past it. -/
theorem test_write_back :
    words (stateOf (step { atPhase .wbSeek .write with drum := 0, block := 1 })) = [0x10000000] ∧
    words (stateOf (step { atPhase .wbWrite .write with drum := 0, block := 1 })) = [0x18000001] := by decide

/-- One byte each way (R169). -/
theorem test_copy :
    (stateOf (step { atPhase .copy .read with bb := [(7, 0x5A)], cursor := 7, transferred := 1 })).hb =
      [(0, 0xAA), (1, 0x5A)] ∧
    (stateOf (step { atPhase .copy .write with bb := [(16, 0)], cursor := 16 })).bb = [(16, 0xAA)] := by decide

/-- R169 and log 6: WRITE goes on at a byte of HB that the state does not list, and READ stops at one of BB (U14). -/
theorem test_copy_of_an_unlisted_byte :
    (stateOf (step { atPhase .copy .write with hb := [], cursor := 16 })).transferred = 1 ∧
    isNext (step (atPhase .copy .read)) = false := by decide

/-- How the host places a row's bits, and that the next step runs it: `hop` 2 is READ, and SeekDrum(1). -/
theorem test_withFetchWord :
    (stateOf (step (State.reset.withFetchWord 8 2))).phase = .lTest ∧
    (stateOf (step (State.reset.withFetchWord 8 2))).op = .read ∧
    words (stateOf (step (State.reset.withFetchWord 32 0x0C400000))) = [0x0C400000] := by decide

/-- The codes of R92 and R34. -/
theorem test_codes :
    [HostOp.mount, .unmount, .read, .write].map HostOp.code = [0, 1, 2, 3] ∧
    [ResultCode.ok, .mountFailure, .unmountFailure, .addressOutOfRange, .deviceCommandFailure].map ResultCode.code =
      [0, 1, 2, 3, 4] := by decide

/-- M1 on RD: MOUNT from reset, three steps. -/
theorem test_mount_on_witness_device :
    (match closedRun 3 ⟨{ State.reset with requests := [.host 0 0 0] }, witnessInitial []⟩ with
      | .next c => decide (c.machine.result = .ok ∧ c.device.mounted = true ∧ c.device.trace = [0x00000000, 0x08000000])
      | .fault _ => false
      | .refused _ => false) = true := by decide

/-! ### A case for the hypotheses of every statement -/

theorem hypotheses_DecodeOfEncodeIsTheOperation :
    OpcMap.default.Injective ∧ (Instr.cmdDiskRead 15 0x3FFFFF).wellFormed = true ∧
    (Instr.hostWrite 0xFFFFFFFF 0xFFFFFFFF).wellFormed = true := by decide

theorem hypotheses_DecodeCmdIsInverseWiring :
    OpcMap.default.Injective ∧ encodeWord .default .diskRead 15 0x3FFFFF = some 0x17FFFFFF := by decide

theorem hypotheses_EncodeFieldsReadBack :
    encodeWord .default .diskWrite 15 256 = some 0x1BC00100 ∧ encodeWord .default .mount 0 0 = some 0 := by decide

theorem hypotheses_EncodeInjectiveWithExactImage :
    OpcMap.default.Injective ∧ encodeWord .default .diskRead 3 7 = some 0x14C00007 := by decide

theorem hypotheses_DecomposeIsABijection :
    (0x12345678 : Word).toNat = (0x1234 : BitVec 16).toNat * 2 ^ 16 + (0x56 : BitVec 8).toNat * 2 ^ 8 +
      (0x78 : BitVec 8).toNat := by decide

theorem hypotheses_DecomposerFieldsStepByOne :
    (drumOf 0xFFFE0000).toNat < 0xFFFF ∧ (blockOf 0xFE00).toNat < 0xFF ∧ (offsetOf 0xFE).toNat < 0xFF := by decide

theorem hypotheses_EncodePacksOrFaults :
    ((15 : Word).toNat < 16 ∧ (0x3FFFFF : Word).toNat < 2 ^ 22) ∧
    ¬((16 : Word).toNat < 16 ∧ (0 : Word).toNat < 2 ^ 22) ∧
    ¬((0 : Word).toNat < 16 ∧ (0x400000 : Word).toNat < 2 ^ 22) := by decide

theorem hypotheses_CommandsWithoutBufferComplete :
    Running .reset ∧ (15 : Word).toNat < 16 ∧ (0x3FFFFF : Word).toNat < 2 ^ 22 := by decide

theorem hypotheses_DiskReadFillsTheBuffer :
    Running (atPhase .idle .read) ∧ (15 : Word).toNat < 16 ∧ (0x3FFFFF : Word).toNat < 2 ^ 22 := by decide

theorem hypotheses_DiskWriteHandsOverTheBuffer :
    Running (atPhase .idle .write) ∧ (15 : Word).toNat < 16 ∧ (0x3FFFFF : Word).toNat < 2 ^ 22 := by decide

theorem hypotheses_CommandOverflowTakesTheFault :
    Running .reset ∧ 16 ≤ (16 : Word).toNat ∧ 2 ^ 22 ≤ (0x400000 : Word).toNat := by decide

theorem hypotheses_FaultPhaseStopsEverything : (atPhase .fault .read).phase = .fault := by decide

theorem hypotheses_LifecycleStartSteps : Ready .reset := by decide

theorem hypotheses_MountIssuesMountThenFormat :
    Ready { State.reset with answers := [answerOf 0xFFFFFFFF, answerOf 0] } ∧
    (answerOf 0xFFFFFFFF).status.toInt < 0 ∧ 0 ≤ (answerOf 0).status.toInt ∧
    0 ≤ (answerOf 0x7FFFFFFF).status.toInt := by decide

theorem hypotheses_UnmountReportsTheStatus : Ready { State.reset with answers := [answerOf 0x80000000] } := by decide

theorem hypotheses_TransferStartStep :
    Ready { State.reset with hbCapacity := 57 } ∧ (57 : Word).toNat ≤ { State.reset with hbCapacity := 57 }.hbCapacity ∧
    ∃ t, exec (.hostRead 0x000102C8 57) { State.reset with hbCapacity := 57 } = .next t :=
  ⟨by decide, by decide, _, next_of_isNext (by decide)⟩

theorem hypotheses_RequestOutsideIdleNotAccepted :
    Running (atPhase .lTest .read) ∧ (atPhase .lTest .read).phase ≠ .idle := by decide

theorem hypotheses_ShortBufferRefused :
    Ready { State.reset with hbCapacity := 1 } ∧ { State.reset with hbCapacity := 1 }.hbCapacity < (2 : Word).toNat := by
  decide

theorem hypotheses_LoopTestStep :
    (atPhase .lTest .read).phase = .lTest ∧ (atPhase .lTest .read).fault = false ∧
    (atPhase .lTest .read).transferred < (atPhase .lTest .read).length ∧
    ¬ { atPhase .lTest .read with transferred := 2 }.transferred < (atPhase .lTest .read).length := by decide

theorem hypotheses_RangeCheckStep :
    (atPhase .validate .read).phase = .validate ∧ (atPhase .validate .read).fault = false ∧
    (15 : BitVec 17).toNat < Config.cfgA.maxDrumCount ∧ (255 : BitVec 22).toNat ≤ Config.cfgA.maxBlockId ∧
    Config.cfgA.maxDrumCount ≤ (16 : BitVec 17).toNat ∧ Config.cfgA.maxBlockId < (256 : BitVec 22).toNat := by decide

theorem hypotheses_FirstTestStep :
    (atPhase .first .read).phase = .first ∧ (atPhase .first .read).fault = false ∧
    (atPhase .first .read).cfg.AsSpecified ∧ { atPhase .first .read with first := true }.first = true ∧
    (atPhase .first .read).first = false := by decide

theorem hypotheses_SeekSteps :
    (atPhase .seekDrum .read).fault = false ∧ Config.cfgA.AsSpecified ∧
    { atPhase .seekDrum .read with drum := 15 }.drum.toNat < 16 ∧
    16 ≤ { atPhase .seekDrum .read with drum := 16 }.drum.toNat ∧
    (atPhase .seekBlock .read).phase = .seekBlock := by decide

theorem hypotheses_RolloverStep :
    (atPhase .roll .read).phase = .roll ∧ (atPhase .roll .read).fault = false ∧ Config.cfgE.AsSpecified ∧
    { atPhase .roll .read with block := 255 }.block.toNat < 256 ∧
    256 ≤ { atPhase .roll .read with block := 256 }.block.toNat ∧
    { atPhase .roll .read with drum := 14 }.drum.toNat + 1 < 16 ∧
    16 ≤ { atPhase .roll .read with drum := 15 }.drum.toNat + 1 ∧
    { atPhase .roll .read with drum := 65536 }.drum.toNat ≤ 65536 := by decide

theorem hypotheses_ReadAndIncrementSteps :
    (atPhase .dread .read).phase = .dread ∧ (atPhase .dread .read).fault = false ∧
    (atPhase .dread .read).cfg.AsSpecified ∧ (atPhase .dread .read).drum.toNat < 16 ∧
    16 ≤ { atPhase .dread .read with drum := 16 }.drum.toNat ∧ (atPhase .inc .read).phase = .inc ∧
    { atPhase .inc .read with block := 0x3FFFFE }.block.toNat < 2 ^ 22 - 1 := by decide

theorem hypotheses_CopyMovesOneByte :
    let s := { atPhase .copy .read with cursor := 255, transferred := 1, bb := filledBuffer (blockOfByte 9) }
    let s' := { atPhase .copy .write with cursor := 255, transferred := 1 }
    (s.phase = .copy ∧ s.fault = false ∧ s.transferred.toNat < s.length.toNat ∧ s.cursor.toNat < 256 ∧ s.op = .read ∧
      memRead s.bb s.cursor.toNat = some 9) ∧
    s'.phase = .copy ∧ s'.fault = false ∧ s'.transferred.toNat < s'.length.toNat ∧ s'.cursor.toNat < 256 ∧
    s'.op = .write :=
  ⟨⟨by decide, by decide, by decide, by decide, by decide,
    (memRead_filledBuffer _ (by decide : 255 < 256)).trans (by simp [blockOfByte])⟩, by decide⟩

theorem hypotheses_IterationEndSteps :
    (atPhase .copy .write).fault = false ∧
    { atPhase .copy .write with transferred := 2 }.length.toNat ≤ { atPhase .copy .write with transferred := 2 }.transferred.toNat ∧
    256 ≤ { atPhase .copy .read with cursor := 256 }.cursor.toNat ∧ (atPhase .copy .write).op = .write ∧
    (atPhase .copy .read).op ≠ .write ∧ (atPhase .iterEnd .read).phase = .iterEnd := by decide

theorem hypotheses_WriteBackSteps :
    (atPhase .wbSeek .write).fault = false ∧ Config.cfgA.AsSpecified ∧
    1 ≤ { atPhase .wbSeek .write with block := 1 }.block.toNat ∧
    { atPhase .wbWrite .write with drum := 15 }.drum.toNat < 16 ∧
    16 ≤ { atPhase .wbWrite .write with drum := 16 }.drum.toNat := by decide

/-- A state of the variant CHECK_STATUS_IN_LOOP = true with a failing answer to come. -/
def checkedState (p : Phase) : State :=
  { atPhase p .write with
    drum := 15, cfg := { Config.cfgA with checkStatusInLoop := true }, answers := [answerOf 0xFFFFFFFF] }

theorem hypotheses_CheckedVariantRaisesDeviceCommandFailure :
    (checkedState .dread).fault = false ∧ (checkedState .dread).cfg.checkStatusInLoop = true ∧
    (checkedState .dread).phase ∈ [Phase.seekDrum, .seekBlock, .dread, .wbSeek, .wbWrite] ∧
    (checkedState .dread).drum.toNat < 16 ∧ (checkedState .dread).answers = [answerOf 0xFFFFFFFF] ∧
    (answerOf 0xFFFFFFFF).status.toInt < 0 ∧ ∃ t, step (checkedState .dread) = .next t :=
  ⟨by decide, by decide, by decide, by decide, rfl, by decide, _, next_of_isNext (by decide)⟩

theorem hypotheses_StepRunsTheDecodedRequest :
    Ready { State.reset with requests := [.host 2 0x000102C8 57] } ∧
    decode Config.cfgA.opc (.host 2 0x000102C8 57) = .operation (.hostRead 0x000102C8 57) ∧
    decode Config.cfgA.opc (.command 0x1C000000) = .rejected (.reservedOpCode 7) ∧
    State.reset.requests = [] := by decide

theorem hypotheses_ResetStateAndNoExitFromFault : (atPhase .fault .read).phase = .fault := by decide

theorem bufferFull_filledBuffer (d : BlockData) : bufferFull (filledBuffer d) := by
  intro i h
  rw [memRead_filledBuffer d h]
  rfl

/-- A WRITE of two bytes at drum 1, block 1, offset 255, in CFG-A, in a phase after its DiskRead. -/
def midWrite (p : Phase) : State :=
  { atPhase p .write with cursor := 255, first := true, bb := filledBuffer (blockOfByte 9) }

theorem midWrite_inv : Inv (midWrite .copy) := by
  constructor <;> first | exact filledBuffer_wf _ | exact fun _ => bufferFull_filledBuffer _ | decide

theorem hypotheses_StepKeepsInv : Inv (midWrite .copy) ∧ ∃ t, step (midWrite .copy) = .next t :=
  ⟨midWrite_inv, _, next_of_isNext (by decide)⟩

theorem hypotheses_PhaseFollowsItsSuccessors :
    (midWrite .copy).cfg.AsSpecified ∧ ∃ t, step (midWrite .copy) = .next t :=
  ⟨by decide, _, next_of_isNext (by decide)⟩

theorem hypotheses_TransfersNeverStop : Inv (midWrite .copy) ∧ (midWrite .copy).phase ∈ transferPhases :=
  ⟨midWrite_inv, by decide⟩

/-- The same WRITE at its first SeekDrum. -/
def firstSeek (c : Config) : State := { atPhase .seekDrum .write with cfg := c, first := true }

theorem firstSeek_inv_cfgA : Inv (firstSeek .cfgA) := by
  constructor <;> first | decide | exact fun h => absurd h (by decide)

theorem firstSeek_inv_fifteen_drums : Inv (firstSeek (.ofBounds 15 256)) := by
  constructor <;> first | decide | exact fun h => absurd h (by decide)

/-- Both ways to be small: CFG-A (block bound below the threshold), and 15 drums with block value 256 in range. -/
theorem hypotheses_OverflowUnreachableInSmallVolumes :
    (Inv (firstSeek .cfgA) ∧ Phase.seekDrum ∈ transferPhases ∧
      Config.cfgA.maxDrumCount ≤ 16 ∧ Config.cfgA.maxBlockId < 256 ∧
      ∃ t, step (firstSeek .cfgA) = .next t) ∧
    (Inv (firstSeek (.ofBounds 15 256)) ∧
      (Config.ofBounds 15 256).maxDrumCount ≤ 15 ∧
      ∃ t, step (firstSeek (.ofBounds 15 256)) = .next t) :=
  ⟨⟨firstSeek_inv_cfgA, by decide, by decide, by decide, _, next_of_isNext (by decide)⟩,
   firstSeek_inv_fifteen_drums, by decide, _, next_of_isNext (by decide)⟩

/-- 17 drums: drum 16 is in range and does not fit ParamA. -/
def wideState : State := { State.reset with cfg := .ofBounds 17 255 }

theorem hypotheses_WideDrumFaultsAtFirstSeek :
    Ready wideState ∧ wideState.cfg.Valid ∧ (1 : Word).toNat ≤ wideState.hbCapacity ∧ 0 < (1 : Word).toNat ∧
    16 ≤ (0x0010FF00 : Word).toNat / 2 ^ 16 ∧ (0x0010FF00 : Word).toNat / 2 ^ 16 < wideState.cfg.maxDrumCount ∧
    (0x0010FF00 : Word).toNat / 2 ^ 8 % 2 ^ 8 ≤ wideState.cfg.maxBlockId := by decide

theorem hypotheses_ZeroLengthIsANoOpSuccess : Ready .reset := by decide

/-- Q2's address in CFG-A, and Q3's in CFG-C. -/
theorem hypotheses_OutOfRangeIssuesNoCommand :
    Ready .reset ∧ (1 : Word).toNat ≤ State.reset.hbCapacity ∧ 0 < (1 : Word).toNat ∧
    Config.cfgA.maxDrumCount ≤ (0x00100000 : Word).toNat / 2 ^ 16 ∧
    Config.cfgC.maxBlockId < (0x00008000 : Word).toNat / 2 ^ 8 % 2 ^ 8 := by decide

theorem hypotheses_StepSubmitsAtMostOnce : ∃ t, step (midWrite .wbSeek) = .next t := ⟨_, next_of_isNext (by decide)⟩

/-- The range check that fails changes `result` from OK. -/
theorem hypotheses_ResultWrittenAtTheEnd :
    ∃ t, step { atPhase .validate .read with drum := 16 } = .next t ∧
      t.result ≠ { atPhase .validate .read with drum := 16 }.result :=
  ⟨_, next_of_isNext (by decide), by decide⟩

theorem hypotheses_FaultFlagIsSticky :
    ∃ t, step { atPhase .seekDrum .read with drum := 16 } = .next t ∧ t.fault = true :=
  ⟨_, next_of_isNext (by decide), by decide⟩

theorem hypotheses_LoopIgnoresStatuses :
    let s := { atPhase .seekDrum .write with trace := [⟨0x0C000000, none, 0, none⟩] }
    let s' := { s with
      answers := [answerOf 0xFFFFFFFF, answerOf 7], trace := [⟨0x0C000000, none, 0xFFFFFFFF, none⟩] }
    s.cfg.AsSpecified ∧ s.phase ∈ transferPhases ∧ s.answers ≠ [] ∧
    s' = { s with answers := s'.answers, trace := s'.trace } ∧
    s.answers.map Answer.buffer = s'.answers.map Answer.buffer ∧
    List.Forall₂ SameButStatus s.trace s'.trace ∧ ∃ t, step s = .next t :=
  ⟨by decide, by decide, by simp [atPhase], rfl, rfl, .cons ⟨rfl, rfl, rfl⟩ .nil, _, next_of_isNext (by decide)⟩

theorem hypotheses_StepsAgreeWithXfer :
    Ready .reset ∧ (300 : Word).toNat ≤ State.reset.hbCapacity ∧ ∃ u, xfer .read 0 0 .reset = .next u :=
  ⟨by decide, by decide, _, rfl⟩

/-- A buffer of two bytes to write, and zeros to come from the device. -/
def twoBytes : State :=
  { State.reset with hb := [(0, 0xAA), (1, 0xBB)], answers := List.replicate 8 (answerOf 0) }

/-- `length` 2 at offset 255 of the last block pair: the largest `b0 + n`. -/
theorem hypotheses_ReadWalksTheBlocks :
    twoBytes.cfg.Valid ∧ Ready twoBytes ∧ (2 : Word).toNat ≤ twoBytes.hbCapacity ∧ 1 ≤ (2 : Word).toNat ∧
    15 = (0x000FFEFF : Word).toNat / 2 ^ 16 ∧ 254 = (0x000FFEFF : Word).toNat / 2 ^ 8 % 2 ^ 8 ∧
    255 = (0x000FFEFF : Word).toNat % 2 ^ 8 ∧ 2 = (255 + (2 : Word).toNat + 255) / 256 ∧
    15 < twoBytes.cfg.maxDrumCount ∧ 254 + 2 ≤ 256 ∧ 254 + 2 ≤ twoBytes.cfg.maxBlockId + 1 := by decide

theorem hypotheses_WriteMergesEveryBlock :
    twoBytes.cfg.Valid ∧ Ready twoBytes ∧ (2 : Word).toNat ≤ twoBytes.hbCapacity ∧ 1 ≤ (2 : Word).toNat ∧
    15 = (0x000FFEFF : Word).toNat / 2 ^ 16 ∧ 254 = (0x000FFEFF : Word).toNat / 2 ^ 8 % 2 ^ 8 ∧
    255 = (0x000FFEFF : Word).toNat % 2 ^ 8 ∧ 2 = (255 + (2 : Word).toNat + 255) / 256 ∧
    15 < twoBytes.cfg.maxDrumCount ∧ 254 + 2 ≤ twoBytes.cfg.maxBlockId + 1 := by decide

/-- From the last block, and from the one before it: one byte more than the drum has left. -/
theorem hypotheses_TransferStopsAtTheEndOfADrum :
    (twoBytes.cfg.Valid ∧ Ready twoBytes ∧ twoBytes.cfg.maxBlockId < 256 ∧
      15 = (0x000FFFFF : Word).toNat / 2 ^ 16 ∧ 255 = (0x000FFFFF : Word).toNat / 2 ^ 8 % 2 ^ 8 ∧
      255 = (0x000FFFFF : Word).toNat % 2 ^ 8 ∧ 15 < twoBytes.cfg.maxDrumCount ∧ 255 ≤ twoBytes.cfg.maxBlockId ∧
      1 = twoBytes.cfg.maxBlockId + 1 - 255 ∧ 256 * 1 - 255 < (2 : Word).toNat ∧
      (2 : Word).toNat ≤ twoBytes.hbCapacity) ∧
    254 = (0x0000FE00 : Word).toNat / 2 ^ 8 % 2 ^ 8 ∧ 0 = (0x0000FE00 : Word).toNat % 2 ^ 8 ∧
    254 ≤ twoBytes.cfg.maxBlockId ∧ 2 = twoBytes.cfg.maxBlockId + 1 - 254 ∧ 256 * 2 - 0 < (513 : Word).toNat ∧
    (513 : Word).toNat ≤ twoBytes.hbCapacity := by decide

/-- The block of vector Q8 after its write: byte 16 is 0x5A. -/
def writtenBlock : BlockData := (blockOfByte 0).set 16 0x5A

/-- The buffer of Q8, and an answer for each of its five commands. -/
def oneByte : State := { State.reset with hb := [(0, 0x5A)], answers := List.replicate 5 (answerOf 0) }

/-- Q8: `write(0x00020310, 1, [0x5A])`. -/
def afterWrite : State := stateOf (xfer .write 0x00020310 1 oneByte)

/-- The host empties its buffer, and the device has the written block to deliver. -/
def beforeRead : State :=
  { afterWrite with hb := [], answers := [answerOf 0, answerOf 0, { status := 0, buffer := writtenBlock }] }

/-- The READ of what Q8 wrote. -/
def afterRead : State := stateOf (xfer .read 0x00020310 1 beforeRead)

theorem write_of_Q8 : xfer .write 0x00020310 1 oneByte = .next afterWrite := next_of_isNext (by decide)

theorem read_of_Q8 : xfer .read 0x00020310 1 beforeRead = .next afterRead := next_of_isNext (by decide +kernel)

/-- The five exchanges of Q8. -/
def writeExchanges : List Exchange :=
  [⟨0x0C800000, none, 0, none⟩, ⟨0x10000003, none, 0, none⟩, ⟨0x14800003, some [], 0, some (blockOfByte 0)⟩,
   ⟨0x10000003, none, 0, none⟩, ⟨0x18800004, some (memWrite (filledBuffer (blockOfByte 0)) 16 0x5A), 0, some (blockOfByte 0)⟩]

/-- The three exchanges of the READ after it. -/
def readExchanges : List Exchange :=
  [⟨0x0C800000, none, 0, none⟩, ⟨0x10000003, none, 0, none⟩, ⟨0x14800003, some [], 0, some writtenBlock⟩]

set_option maxRecDepth 20000 in
theorem write_trace : afterWrite.trace = writeExchanges := by rfl

set_option maxRecDepth 20000 in
theorem read_trace : afterRead.trace = writeExchanges ++ readExchanges := by rfl


theorem beforeRead_trace : beforeRead.trace = writeExchanges := write_trace
theorem beforeRead_opc : beforeRead.cfg.opc = .default := by decide +kernel
theorem read_trace_after : afterRead.trace = beforeRead.trace ++ readExchanges := by
  rw [beforeRead_trace]
  exact read_trace

/-- A volume of zeros with its position anywhere, and the same with Q8's block written. -/
def zeroVolume (d b : Nat) : Volume := { drum := d, block := b, store := fun _ _ => blockOfByte 0 }
def writtenVolume (d b : Nat) : Volume :=
  { drum := d, block := b, store := fun d b => if d = 2 ∧ b = 3 then writtenBlock else blockOfByte 0 }

theorem write_served : Volume.serves .default (zeroVolume 0 0) writeExchanges (writtenVolume 2 4) := by
  refine ⟨zeroVolume 2 0, fun _ => ⟨rfl, rfl, rfl⟩, zeroVolume 2 3, fun _ => ⟨rfl, rfl, rfl⟩, zeroVolume 2 4,
    fun _ => ⟨rfl, rfl, rfl, rfl⟩, zeroVolume 2 3, fun _ => ⟨rfl, rfl, rfl⟩, writtenVolume 2 4, fun _ => ⟨?_, ?_, rfl, rfl⟩, rfl⟩
  · exact fun data h => filledBuffer_injective
      ((memWrite_filledBuffer _ 16 0x5A (by decide)).symm.trans (Option.some.inj h))
  · intro d b h
    simp only [zeroVolume, writtenVolume, ne_eq, Prod.mk.injEq] at h ⊢
    rw [if_neg h]

theorem read_served : Volume.serves .default (writtenVolume 2 4) readExchanges (writtenVolume 2 4) :=
  ⟨writtenVolume 2 0, fun _ => ⟨rfl, rfl, rfl⟩, writtenVolume 2 3, fun _ => ⟨rfl, rfl, rfl⟩, writtenVolume 2 4,
    fun _ => ⟨rfl, rfl, rfl, rfl⟩, rfl⟩

theorem read_served_before : Volume.serves beforeRead.cfg.opc (writtenVolume 2 4) readExchanges (writtenVolume 2 4) := by
  rw [beforeRead_opc]
  exact read_served

theorem hypotheses_HostBufferFrame :
    (∃ u, xfer .read 0x00020310 1 beforeRead = .next u) ∧ (∃ u, xfer .write 0x00020310 1 oneByte = .next u) ∧
    (1 : Word).toNat ≤ 1 :=
  ⟨⟨_, read_of_Q8⟩, ⟨_, write_of_Q8⟩, by decide⟩

/-- The two states differ in working registers and in BB. -/
theorem hypotheses_NothingCarriedBetweenCalls :
    let s' := { oneByte with drum := 9, cursor := 7, first := true, bb := [(3, 4)], result := .mountFailure }
    s'.cfg = oneByte.cfg ∧ s'.hb = oneByte.hb ∧ s'.hbFill = oneByte.hbFill ∧ s'.hbCapacity = oneByte.hbCapacity ∧ s'.answers = oneByte.answers ∧
    s'.trace = oneByte.trace ∧ xfer .write 0x00020310 1 oneByte = .next afterWrite :=
  ⟨rfl, rfl, rfl, rfl, rfl, rfl, write_of_Q8⟩

theorem hypotheses_ReadDeliversStoredBytes :
    beforeRead.cfg.Valid ∧ xfer .read 0x00020310 1 beforeRead = .next afterRead ∧ afterRead.phase = .idle ∧
    afterRead.result = .ok ∧ afterRead.trace = beforeRead.trace ++ readExchanges ∧
    Volume.serves beforeRead.cfg.opc (writtenVolume 2 4) readExchanges (writtenVolume 2 4) ∧
    allSucceeded readExchanges :=
  ⟨by decide +kernel, read_of_Q8, by decide +kernel, by decide +kernel, read_trace_after, read_served_before, by simp [allSucceeded, readExchanges, statusFailed]⟩

theorem hypotheses_WriteStoresExactlyItsBytes :
    oneByte.cfg.Valid ∧ xfer .write 0x00020310 1 oneByte = .next afterWrite ∧ afterWrite.phase = .idle ∧
    afterWrite.result = .ok ∧ afterWrite.trace = oneByte.trace ++ writeExchanges ∧
    Volume.serves oneByte.cfg.opc (zeroVolume 0 0) writeExchanges (writtenVolume 2 4) ∧
    allSucceeded writeExchanges :=
  ⟨by decide, write_of_Q8, by decide +kernel, by decide +kernel, write_trace, write_served, by simp [allSucceeded, writeExchanges, statusFailed]⟩

/-- With the two before it: the state between the calls differs from the WRITE's end as the statement says. -/
theorem hypotheses_ReadAfterWriteReturnsTheBytes :
    beforeRead = { afterWrite with
      hb := beforeRead.hb, hbFill := beforeRead.hbFill, hbCapacity := beforeRead.hbCapacity, answers := beforeRead.answers,
      requests := beforeRead.requests } ∧
    oneByte.cfg.Valid ∧ xfer .write 0x00020310 1 oneByte = .next afterWrite ∧
    xfer .read 0x00020310 1 beforeRead = .next afterRead ∧
    afterWrite.trace = oneByte.trace ++ writeExchanges ∧ afterRead.trace = beforeRead.trace ++ readExchanges ∧
    Volume.serves oneByte.cfg.opc (zeroVolume 0 0) writeExchanges (writtenVolume 2 4) ∧
    Volume.serves oneByte.cfg.opc (writtenVolume 2 4) readExchanges (writtenVolume 2 4) ∧
    memRead afterRead.hb 0 = some 0x5A :=
  ⟨rfl, by decide, write_of_Q8, read_of_Q8, write_trace, read_trace_after, write_served, read_served, by decide +kernel⟩

theorem hypotheses_WitnessDeviceMeetsTheAssumptions :
    decodeCmd .default 0x14C00007 = some (.diskRead, 3, 7) ∧ (some ([] : Memory)).isSome = true ∧
    (witnessSubmit .default 0x14C00007 (some []) (witnessInitial [])).1.status = 0 := by decide

end Sys2Proof.Tests
end

section
/-! SUPPORT. The registers as inputs of ENCODE, the commands whose parameters fit, the outcomes of an operation, and the
steps of a block that has not faulted. -/

namespace Sys2Proof.Machine

/-! ### Operands -/

@[simp] theorem drumParam_toNat (s : State) : (drumParam s).toNat = s.drum.toNat :=
  BitVec.toNat_setWidth_of_le (by decide)

@[simp] theorem blockParam_toNat (s : State) : (blockParam s).toNat = s.block.toNat :=
  BitVec.toNat_setWidth_of_le (by decide)

@[simp] theorem previousBlockParam_toNat (s : State) : (previousBlockParam s).toNat = (s.block - 1).toNat :=
  BitVec.toNat_setWidth_of_le (by decide)

theorem drumOf_toNat (address : Word) : (drumOf address).toNat = address.toNat / 2 ^ 16 := by
  have := address.isLt
  simp only [drumOf, BitVec.toNat_setWidth, BitVec.toNat_ushiftRight, Nat.shiftRight_eq_div_pow]
  omega

theorem blockOf_toNat (address : Word) : (blockOf address).toNat = address.toNat / 2 ^ 8 % 2 ^ 8 := by
  have hmask : (address.toNat &&& 0xFF00) >>> 8 = address.toNat / 2 ^ 8 % 2 ^ 8 := by
    rw [Nat.shiftRight_and_distrib, Nat.shiftRight_eq_div_pow, ← Nat.and_two_pow_sub_one_eq_mod _ 8]
    rfl
  calc (blockOf address).toNat = (address.toNat &&& 0xFF00) >>> 8 % 2 ^ 8 := by simp [blockOf]
    _ = address.toNat / 2 ^ 8 % 2 ^ 8 := by rw [hmask, Nat.mod_mod]

/-- `drum + 1` does not wrap from a drum the configuration admits. -/
theorem rollOver_drum_toNat {s : State} (h : s.drum.toNat < 65536) : (rollOver s).drum.toNat = s.drum.toNat + 1 := by
  change (s.drum + 1).toNat = s.drum.toNat + 1
  bv_omega

/-- `block + 1` does not wrap below the threshold. -/
theorem nextBlock_block_toNat {s : State} (h : s.block.toNat < 256) :
    (nextBlock s).block.toNat = s.block.toNat + 1 := by
  change (s.block + 1).toNat = s.block.toNat + 1
  bv_omega

/-! ### Commands whose parameters fit -/

/-- ENCODE answers a word only where both parameters fit. -/
theorem fits_of_encodeWord {m : OpcMap} {k : OpKind} {a b w : Word} (h : encodeWord m k a b = some w) :
    a.toNat < 16 ∧ b.toNat < 4194304 := by
  rcases encodeWord_cases m k a b with ⟨ha, hb, _⟩ | ⟨_, hn⟩
  · exact ⟨ha, hb⟩
  · simp [hn] at h

/-- ENCODE answers no word where ParamA overflows (40_command_encoder.md R113). -/
theorem encodeWord_of_overflow {m : OpcMap} {k : OpKind} {a b : Word} (h : 16 ≤ a.toNat) :
    encodeWord m k a b = none := by
  rcases encodeWord_cases m k a b with ⟨ha, _, _⟩ | ⟨_, hn⟩
  · omega
  · exact hn

/-- A command of the loop whose parameters fit goes on to its next phase. -/
theorem issueInLoop_phase_of_fits {k : OpKind} {a b : Word} {p : Phase} {s : State}
    (hc : s.cfg.checkStatusInLoop = false) (ha : a.toNat < 16) (hb : b.toNat < 4194304) :
    (issueInLoop k a b p s).phase = p := by
  rcases issueInLoop_cases k a b p s hc with ⟨hn, _⟩ | ⟨w, _, hw⟩
  · rcases encodeWord_cases s.cfg.opc k a b with ⟨_, _, he⟩ | ⟨hno, _⟩
    · simp [he] at hn
    · exact absurd ⟨ha, hb⟩ hno
  · rw [hw, goto_phase]

/-- A command of the loop whose ParamA overflows takes the fault and nothing else. -/
theorem issueInLoop_of_overflow {k : OpKind} {a b : Word} {p : Phase} {s : State}
    (hc : s.cfg.checkStatusInLoop = false) (ha : 16 ≤ a.toNat) : issueInLoop k a b p s = enterFault s := by
  rcases issueInLoop_cases k a b p s hc with ⟨_, he⟩ | ⟨w, hw, _⟩
  · exact he
  · simp [encodeWord_of_overflow ha] at hw

/-! ### The outcomes of an operation -/

/-- The states an operation can answer from `s`: one constructor per effect, with what the operation checked. -/
inductive RanTo (s : State) : State → Prop where
  | faulted : RanTo s (enterFault s)
  | submitted (k : OpKind) (w : Word) : RanTo s (submit w (bufferArg k s) s)
  | adecDriven (lines : AdecLines) : RanTo s { s with adec := lines }
  | dceDriven (w : Word) : RanTo s { s with dceWord := w }
  | mountStarted : RanTo s { s with op := .mount, phase := .mMount }
  | unmountStarted : RanTo s { s with op := .unmount, phase := .uUnmount }
  | transferStarted (dir : HostOp) (address length : Word) (hdir : dir = .read ∨ dir = .write)
      (hcap : length.toNat ≤ s.hbCapacity) : RanTo s (startTransfer dir address length s)

theorem deviceCommand_ranTo {k : OpKind} {a b : Word} {s t : State} (h : deviceCommand k a b s = .next t) :
    RanTo s t := by
  obtain ⟨_, ⟨_, rfl⟩ | ⟨w, _, rfl⟩⟩ := deviceCommand_cases h
  · exact .faulted
  · exact .submitted k w

theorem execHostMount_ranTo {s t : State} (h : execHostMount s = .next t) : RanTo s t := by
  obtain ⟨_, _, rfl⟩ := acceptRequest_cases h
  exact .mountStarted

theorem execHostUnmount_ranTo {s t : State} (h : execHostUnmount s = .next t) : RanTo s t := by
  obtain ⟨_, _, rfl⟩ := acceptRequest_cases h
  exact .unmountStarted

theorem acceptTransfer_ranTo {dir : HostOp} {address length : Word} {s t : State} (hdir : dir = .read ∨ dir = .write)
    (h : acceptTransfer dir address length s = .next t) : RanTo s t := by
  obtain ⟨_, _, hcap, rfl⟩ := acceptTransfer_cases h
  exact .transferStarted dir address length hdir hcap

theorem execEncode_ranTo {k : OpKind} {a b : Word} {s t : State} (h : execEncode k a b s = .next t) : RanTo s t := by
  unfold execEncode at h
  split at h
  · cases h; exact .faulted
  · next w _ => cases h; exact .dceDriven w

/-- Everything an operation can answer. -/
theorem exec_ranTo {i : Instr} {s t : State} (h : exec i s = .next t) : RanTo s t := by
  cases i with
  | cmdMount => exact deviceCommand_ranTo h
  | cmdUnmount => exact deviceCommand_ranTo h
  | cmdFormatDrum d b => exact deviceCommand_ranTo h
  | cmdSeekDrum d => exact deviceCommand_ranTo h
  | cmdSeekBlock b => exact deviceCommand_ranTo h
  | cmdDiskRead d b => exact deviceCommand_ranTo h
  | cmdDiskWrite d b => exact deviceCommand_ranTo h
  | hostMount => exact execHostMount_ranTo h
  | hostUnmount => exact execHostUnmount_ranTo h
  | hostRead a n => exact acceptTransfer_ranTo (.inl rfl) h
  | hostWrite a n => exact acceptTransfer_ranTo (.inr rfl) h
  | drumOf a => cases h; exact .adecDriven _
  | blockOf a => cases h; exact .adecDriven _
  | offsetOf a => cases h; exact .adecDriven _
  | decompose a => cases h; exact .adecDriven _
  | encode k a b => exact execEncode_ranTo h

/-- A step in IDLE waits, or answers what an operation answers from the state with the request taken off. -/
theorem stepIdle_ranTo {s t : State} (h : stepIdle s = .next t) : t = s ∨ RanTo (withoutRequest s) t := by
  rcases stepIdle_cases h with ⟨_, rfl⟩ | ⟨_, _, _, _, _, he⟩
  · exact .inl rfl
  · exact .inr (exec_ranTo he)

/-! ### Steps of a block that has not faulted -/

/-- While the block runs, its step is the step of its phase (10_state.md R33). -/
theorem step_of_running {s : State} (h : Running s) : step s = phaseStep s :=
  step_of_not_halted ((not_halted_iff s).2 ⟨h.2, h.1⟩)

/-- An idle block that has not faulted takes the step of IDLE. -/
theorem step_of_ready {s : State} (h : Ready s) : step s = stepIdle s := by
  obtain ⟨hp, hf⟩ := h
  rw [step_of_running ⟨by simp [hp], hf⟩]
  simp [phaseStep, hp]

/-- The loop test with bytes left to move (R160). -/
theorem step_lTest_of_moreToMove {s : State} (hp : s.phase = .lTest) (hf : s.fault = false)
    (hm : moreToMove s = true) : step s = .next (goto .validate s) := by
  rw [step_of_running ⟨by simp [hp], hf⟩]
  simp [phaseStep, hp, stepLTest, hm]

/-- The range check of a position in range (R161). -/
theorem step_validate_of_inRange {s : State} (hp : s.phase = .validate) (hf : s.fault = false)
    (hr : inRange s = true) : step s = .next (goto .first s) := by
  rw [step_of_running ⟨by simp [hp], hf⟩]
  simp [phaseStep, hp, stepValidate, hr]

/-- The first-iteration test in the first iteration (R162). -/
theorem step_first_of_isFirstIteration {s : State} (hp : s.phase = .first) (hf : s.fault = false)
    (hi : isFirstIteration s = true) : step s = .next (goto .seekDrum (cursorAtOffset s)) := by
  rw [step_of_running ⟨by simp [hp], hf⟩]
  simp [phaseStep, hp, stepFirst, hi]

/-- The SeekDrum of a drum that does not fit ParamA (R163, R113). -/
theorem step_seekDrum_of_overflow {s : State} (hp : s.phase = .seekDrum) (hf : s.fault = false)
    (hc : s.cfg.checkStatusInLoop = false) (hd : 16 ≤ s.drum.toNat) : step s = .next (enterFault s) := by
  rw [step_of_running ⟨by simp [hp], hf⟩]
  simp [phaseStep, hp, stepSeekDrum, issueInLoop_of_overflow hc ((drumParam_toNat s).symm ▸ hd)]

/-- A run of one step more, by its first step. -/
theorem run_succ_of_step {s t : State} (h : step s = .next t) (n : Nat) :
    Host.Core.run Sys2Proof.core (n + 1) s = Host.Core.run Sys2Proof.core n t := by
  have hs : Sys2Proof.core.step s = .next t := h
  simp only [Host.Core.run, hs]

/-- A READ the block accepts answers its start step (43_io_sequencer.md R155). -/
theorem exec_hostRead_of_ready {s : State} (h : Ready s) {address length : Word}
    (hcap : length.toNat ≤ s.hbCapacity) :
    exec (.hostRead address length) s = .next (startTransfer .read address length s) := by
  obtain ⟨hp, hf⟩ := h
  simp [exec, execHostRead, acceptTransfer, isHalted, hp, hf, hcap]

end Sys2Proof.Machine
end

section
/-! SUPPORT. `Inv` as two parts: the bounds that hold in every phase, and a table of what holds in each phase. A step is
then one entry of the table derived from another. -/

namespace Sys2Proof.Machine

/-- The clauses of `Inv` that do not depend on the phase. -/
structure Bounded (s : State) : Prop where
  configured : s.cfg.Valid
  bufferCanonical : Memory.wf s.bb = true
  hostCanonical : Memory.wf s.hb = true
  movedWithinLength : s.transferred.toNat ≤ s.length.toNat
  lengthWithinCapacity : s.length.toNat ≤ s.hbCapacity
  cursorInBuffer : s.cursor.toNat ≤ blockSize
  blockBound : s.block.toNat ≤ 256
  drumBound : s.drum.toNat ≤ 65536

/-- In every phase of READ and WRITE: the operation is one of the two, and after the first iteration the current drum
has been sought. -/
def Transferring (s : State) : Prop := (s.op = .read ∨ s.op = .write) ∧ (s.first = false → s.drum.toNat < 16)

/-- Bytes are left to move, and the position has passed the range check (43_io_sequencer.md R160, R161). -/
def Checked (s : State) : Prop :=
  s.transferred.toNat < s.length.toNat ∧ s.drum.toNat < s.cfg.maxDrumCount ∧ s.block.toNat ≤ s.cfg.maxBlockId

/-- The drum has been sought, by the first SeekDrum or by the one of a rollover (R163, R166). -/
def DrumSought (s : State) : Prop := s.drum.toNat ≤ s.cfg.maxDrumCount ∧ s.drum.toNat < 16

/-- `block` is the target of the coming DiskRead, and it is valid (R167). -/
def AtTarget (s : State) : Prop :=
  s.transferred.toNat < s.length.toNat ∧ s.block.toNat < 256 ∧ s.block.toNat ≤ s.cfg.maxBlockId

/-- BB holds the block before `block` (R168). -/
def PastTarget (s : State) : Prop :=
  1 ≤ s.block.toNat ∧ s.block.toNat ≤ s.cfg.maxBlockId + 1 ∧ bufferFull s.bb

/-- What the steps before a phase have established in it. It reads the registers of `s` and not its phase. -/
def AtPhase (s : State) : Phase → Prop
  | .idle => True
  | .lTest => Transferring s
  | .validate => Transferring s ∧ s.transferred.toNat < s.length.toNat
  | .first => Transferring s ∧ Checked s
  | .seekDrum => Transferring s ∧ Checked s ∧ s.first = true
  | .seekBlock => Transferring s ∧ Checked s ∧ s.first = true ∧ s.drum.toNat < 16
  | .roll => Transferring s ∧ Checked s ∧ s.drum.toNat < 16
  | .dread => Transferring s ∧ DrumSought s ∧ AtTarget s
  | .inc => Transferring s ∧ DrumSought s ∧ AtTarget s ∧ bufferFull s.bb
  | .copy => Transferring s ∧ DrumSought s ∧ PastTarget s
  | .wbSeek => Transferring s ∧ DrumSought s ∧ PastTarget s ∧ s.op = .write
  | .wbWrite => Transferring s ∧ DrumSought s ∧ PastTarget s ∧ s.op = .write
  | .iterEnd => Transferring s ∧ DrumSought s
  | .mMount => s.op = .mount
  | .mFormat => s.op = .mount
  | .uUnmount => s.op = .unmount
  | .fault => True

/-! ### `Inv` is the bounds and the entry of the phase -/

theorem Inv.bounded {s : State} (h : Inv s) : Bounded s := { h with }

/-- The clauses of `Inv` about a phase, collected into its entry of the table. -/
theorem Inv.atPhase {s : State} (h : Inv s) {p : Phase} (hp : s.phase = p) : AtPhase s p := by
  subst hp
  obtain ⟨-, -, -, -, -, -, -, -, -, htransfer, hwrite, hmount, hunmount, hmore, hrange, hroll, htarget, hpast, hfirst,
    hsought, hlater, hfull⟩ := h
  generalize s.phase = p at *
  cases p <;> simp_all [AtPhase, Transferring, Checked, DrumSought, AtTarget, PastTarget, transferPhases,
    drumSoughtPhases, moreToMove_iff, inRange_iff]

/-- The bounds, the fault flag and the entry of the phase make up `Inv`: each clause about the phase is read off the
table. -/
theorem inv_of_atPhase {s : State} {p : Phase} (hb : Bounded s) (hp : s.phase = p)
    (hf : s.fault = true ↔ p = .fault) (ha : AtPhase s p) : Inv s := by
  subst hp
  obtain ⟨hcfg, hbb, hhb, hmoved, hlength, hcursor, hblock, hdrum⟩ := hb
  refine ⟨hcfg, hbb, hhb, hf, hmoved, hlength, hcursor, hblock, hdrum,
    ?_, ?_, ?_, ?_, ?_, ?_, ?_, ?_, ?_, ?_, ?_, ?_, ?_⟩
  all_goals
    generalize s.phase = p at *
    cases p <;> simp_all [AtPhase, Transferring, Checked, DrumSought, AtTarget, PastTarget, transferPhases,
      drumSoughtPhases, moreToMove_iff, inRange_iff]

/-- `AtPhase` reads no phase, so a control transfer keeps it. -/
theorem atPhase_goto (q : Phase) (s : State) (p : Phase) : AtPhase (goto q s) p ↔ AtPhase s p := by
  cases p <;> rfl

/-! ### The bounds under the updates -/

theorem bounded_goto {s : State} (p : Phase) (h : Bounded s) : Bounded (goto p s) := { h with }

theorem bounded_endOperation {s : State} (r : ResultCode) (h : Bounded s) : Bounded (endOperation r s) := { h with }

theorem bounded_enterFault {s : State} (h : Bounded s) : Bounded (enterFault s) := { h with }

theorem bounded_clearFirst {s : State} (h : Bounded s) : Bounded (clearFirst s) := { h with }

theorem bounded_withoutRequest {s : State} (h : Bounded s) : Bounded (withoutRequest s) := { h with }

theorem bounded_submit {s : State} (w : Word) (m : Option Memory) (h : Bounded s) : Bounded (submit w m s) :=
  { h with bufferCanonical := bufferAfter_wf _ h.bufferCanonical }

theorem bounded_cursorAtOffset {s : State} (h : Bounded s) : Bounded (cursorAtOffset s) :=
  { h with
    cursorInBuffer := by
      rw [cursorAtOffset_cursor, BitVec.toNat_setWidth_of_le (by decide)]
      exact Nat.le_of_lt s.byteOffset.isLt }

theorem bounded_cursorAtZero {s : State} (h : Bounded s) : Bounded (cursorAtZero s) :=
  { h with cursorInBuffer := Nat.zero_le _ }

theorem bounded_rollOver {s : State} (h : Bounded s) (hd : s.drum.toNat < 65536) : Bounded (rollOver s) :=
  { h with
    blockBound := Nat.zero_le _
    drumBound := by rw [rollOver_drum_toNat hd]; omega }

theorem bounded_nextBlock {s : State} (h : Bounded s) (hb : s.block.toNat < 256) : Bounded (nextBlock s) :=
  { h with blockBound := by rw [nextBlock_block_toNat hb]; omega }

/-- One byte counted, with bytes left to move and room in the block. -/
theorem bounded_advance {s : State} (h : Bounded s) (hm : s.transferred.toNat < s.length.toNat)
    (hr : s.cursor.toNat < 256) : Bounded (advance s) :=
  { h with
    movedWithinLength := by
      change (s.transferred + 1).toNat ≤ s.length.toNat
      bv_omega
    cursorInBuffer := by
      change (s.cursor + 1).toNat ≤ 256
      bv_omega }

theorem bounded_startTransfer {s : State} (dir : HostOp) (address length : Word) (h : Bounded s)
    (hcap : length.toNat ≤ s.hbCapacity) : Bounded (startTransfer dir address length s) :=
  { h with
    bufferCanonical := empty_wf
    movedWithinLength := Nat.zero_le _
    lengthWithinCapacity := hcap
    blockBound := by
      rw [startTransfer_block, BitVec.toNat_setWidth_of_le (by decide)]
      exact Nat.le_of_lt (blockOf address).isLt
    drumBound := by
      rw [startTransfer_drum, BitVec.toNat_setWidth_of_le (by decide)]
      exact Nat.le_of_lt (drumOf address).isLt }

/-! ### BB whole -/

/-- A write to BB loses no byte. -/
theorem bufferFull_memWrite {m : Memory} (i : Nat) (v : Byte) (h : bufferFull m) : bufferFull (memWrite m i v) := by
  intro j hj
  rw [memRead_memWrite]
  split
  · rfl
  · exact h j hj

/-- DiskRead fills BB whole (R167). -/
theorem bufferFull_submit_diskRead (w : Word) (s : State) :
    bufferFull (submit w (bufferArg .diskRead s) s).bb := by
  intro i hi
  simp [bufferArg, returnedBuffer, bufferAfter, memRead_filledBuffer _ hi]

/-! ### Where a step lands -/

theorem inv_goto {s : State} {p : Phase} (hb : Bounded s) (hf : s.fault = false) (hp : p ≠ .fault)
    (ha : AtPhase s p) : Inv (goto p s) :=
  inv_of_atPhase (bounded_goto p hb) (goto_phase p s) (by simp [hf, hp]) ((atPhase_goto p s p).2 ha)

theorem inv_endOperation {s : State} (r : ResultCode) (hb : Bounded s) (hf : s.fault = false) :
    Inv (endOperation r s) :=
  inv_of_atPhase (bounded_endOperation r hb) (endOperation_phase r s) (by simp [hf]) trivial

theorem inv_enterFault {s : State} (hb : Bounded s) : Inv (enterFault s) :=
  inv_of_atPhase (bounded_enterFault hb) (enterFault_phase s) (by simp) trivial

/-- A command of the loop: what the next phase needs may use that the parameters fit. -/
theorem inv_issueInLoop {k : OpKind} {a b : Word} {p : Phase} {s : State} (hb : Bounded s) (hf : s.fault = false)
    (hp : p ≠ .fault) (ha : ∀ w, a.toNat < 16 → AtPhase (submit w (bufferArg k s) s) p) :
    Inv (issueInLoop k a b p s) := by
  obtain ⟨_, _, hc, _⟩ := hb.configured
  rcases issueInLoop_cases k a b p s hc with ⟨_, he⟩ | ⟨w, hw, he⟩
  · rw [he]
    exact inv_enterFault hb
  · rw [he]
    exact inv_goto (bounded_submit w _ hb) hf hp (ha w (fits_of_encodeWord hw).1)

/-! ### One step of each phase -/

/-- An operation run in IDLE. -/
theorem inv_of_ranTo {s t : State} (hb : Bounded s) (hp : s.phase = .idle) (hf : s.fault = false) (h : RanTo s t) :
    Inv t := by
  cases h with
  | faulted => exact inv_enterFault hb
  | submitted k w => exact inv_of_atPhase (bounded_submit w _ hb) (p := .idle) hp (by simp [hf]) trivial
  | adecDriven lines => exact inv_of_atPhase (p := .idle) { hb with } hp (by simp [hf]) trivial
  | dceDriven w => exact inv_of_atPhase (p := .idle) { hb with } hp (by simp [hf]) trivial
  | mountStarted => exact inv_of_atPhase (p := .mMount) { hb with } rfl (by simp [hf]) rfl
  | unmountStarted => exact inv_of_atPhase (p := .uUnmount) { hb with } rfl (by simp [hf]) rfl
  | transferStarted dir address length hdir hcap =>
    exact inv_of_atPhase (bounded_startTransfer dir address length hb hcap) (p := .lTest) rfl (by simp [hf])
      ⟨hdir, fun h => absurd h (by simp)⟩

theorem inv_of_stepIdle {s t : State} (h : Inv s) (hp : s.phase = .idle) (hf : s.fault = false)
    (ht : stepIdle s = .next t) : Inv t := by
  rcases stepIdle_ranTo ht with rfl | hr
  · exact h
  · exact inv_of_ranTo (bounded_withoutRequest h.bounded) hp hf hr

theorem inv_stepLTest {s : State} (h : Inv s) (hp : s.phase = .lTest) (hf : s.fault = false) : Inv (stepLTest s) := by
  have ht : Transferring s := h.atPhase hp
  unfold stepLTest
  split
  · next hm => exact inv_goto h.bounded hf (by decide) ⟨ht, (moreToMove_iff s).1 hm⟩
  · exact inv_endOperation _ h.bounded hf

theorem inv_stepValidate {s : State} (h : Inv s) (hp : s.phase = .validate) (hf : s.fault = false) :
    Inv (stepValidate s) := by
  obtain ⟨ht, hm⟩ : Transferring s ∧ _ := h.atPhase hp
  unfold stepValidate
  split
  · next hr => exact inv_goto h.bounded hf (by decide) ⟨ht, hm, (inRange_iff s).1 hr⟩
  · exact inv_endOperation _ h.bounded hf

theorem inv_stepFirst {s : State} (h : Inv s) (hp : s.phase = .first) (hf : s.fault = false) : Inv (stepFirst s) := by
  obtain ⟨ht, hc⟩ : Transferring s ∧ Checked s := h.atPhase hp
  obtain ⟨_, _, _, hflag⟩ := h.configured
  unfold stepFirst
  rw [isFirstIteration_flag hflag]
  split
  · next hfirst => exact inv_goto (bounded_cursorAtOffset h.bounded) hf (by decide) ⟨ht, hc, hfirst⟩
  · next hfirst =>
    exact inv_goto (bounded_cursorAtZero h.bounded) hf (by decide) ⟨ht, hc, ht.2 (by simpa using hfirst)⟩

theorem inv_stepSeekDrum {s : State} (h : Inv s) (hp : s.phase = .seekDrum) (hf : s.fault = false) :
    Inv (stepSeekDrum s) := by
  obtain ⟨ht, hc, hfirst⟩ : Transferring s ∧ Checked s ∧ _ := h.atPhase hp
  refine inv_issueInLoop h.bounded hf (by decide) fun w hd => ?_
  rw [drumParam_toNat] at hd
  exact ⟨ht, hc, hfirst, hd⟩

theorem inv_stepSeekBlock {s : State} (h : Inv s) (hp : s.phase = .seekBlock) (hf : s.fault = false) :
    Inv (stepSeekBlock s) := by
  obtain ⟨ht, hc, _, hd⟩ : Transferring s ∧ Checked s ∧ _ ∧ _ := h.atPhase hp
  exact inv_issueInLoop h.bounded hf (by decide) fun w _ => ⟨ht, hc, hd⟩

/-- On rollover the new drum is at most MAX_DRUM_COUNT, and sought before DREAD (R166, R186). -/
theorem inv_stepRoll {s : State} (h : Inv s) (hp : s.phase = .roll) (hf : s.fault = false) : Inv (stepRoll s) := by
  obtain ⟨⟨hop, _⟩, ⟨hm, hdrum, hblock⟩, hd⟩ : Transferring s ∧ Checked s ∧ _ := h.atPhase hp
  obtain ⟨_, hthreshold, _⟩ := h.configured
  have hnew := rollOver_drum_toNat (s := s) (by omega)
  unfold stepRoll
  split
  · refine inv_issueInLoop (bounded_rollOver h.bounded (by omega)) hf (by decide) fun w hfit => ?_
    rw [drumParam_toNat] at hfit
    refine ⟨⟨hop, fun _ => hfit⟩, ⟨?_, hfit⟩, hm, ?_, Nat.zero_le _⟩
    · rw [submit_drum, submit_cfg, rollOver_cfg, hnew]
      omega
    · simp
  · next hr =>
    have hb := (not_rolloverDue_iff s).1 (by simpa using hr)
    rw [hthreshold, blockSize] at hb
    exact inv_goto h.bounded hf (by decide) ⟨⟨hop, fun _ => hd⟩, ⟨by omega, hd⟩, hm, hb, hblock⟩

theorem inv_stepDread {s : State} (h : Inv s) (hp : s.phase = .dread) (hf : s.fault = false) : Inv (stepDread s) := by
  obtain ⟨ht, hd, hb⟩ : Transferring s ∧ DrumSought s ∧ AtTarget s := h.atPhase hp
  exact inv_issueInLoop h.bounded hf (by decide) fun w _ => ⟨ht, hd, hb, bufferFull_submit_diskRead w s⟩

theorem inv_stepInc {s : State} (h : Inv s) (hp : s.phase = .inc) (hf : s.fault = false) : Inv (stepInc s) := by
  obtain ⟨ht, hd, ⟨_, hb, hvalid⟩, hfull⟩ : Transferring s ∧ DrumSought s ∧ AtTarget s ∧ _ := h.atPhase hp
  have hnext := nextBlock_block_toNat hb
  exact inv_goto (bounded_nextBlock h.bounded hb) hf (by decide) ⟨ht, hd, by omega, by rw [hnext]; simpa, hfull⟩

/-- A copied byte leaves the block in COPY, with BB whole. -/
theorem inv_of_copyByte {s t : State} (h : Inv s) (hp : s.phase = .copy) (hf : s.fault = false)
    (hm : s.transferred.toNat < s.length.toNat) (hr : s.cursor.toNat < 256) (ht : copyByte s = .next t) : Inv t := by
  obtain ⟨hop, hd, hlow, hhigh, hfull⟩ : Transferring s ∧ DrumSought s ∧ PastTarget s := h.atPhase hp
  have hb := h.bounded
  rcases copyByte_cases ht with ⟨_, v, _, rfl⟩ | ⟨_, rfl⟩ | ⟨_, rfl⟩
  · refine inv_of_atPhase (p := .copy) (bounded_advance ?_ hm hr) hp (by simp [hf]) ⟨hop, hd, hlow, hhigh, hfull⟩
    exact { hb with hostCanonical := memWrite_wf _ _ hb.hostCanonical }
  · refine inv_of_atPhase (p := .copy) (bounded_advance ?_ hm hr) hp (by simp [hf])
      ⟨hop, hd, hlow, hhigh, bufferFull_memWrite _ _ hfull⟩
    exact { hb with bufferCanonical := memWrite_wf _ _ hb.bufferCanonical }
  · exact inv_of_atPhase (p := .copy) (bounded_advance hb hm hr) hp (by simp [hf]) ⟨hop, hd, hlow, hhigh, hfull⟩

/-- The end of the inner loop: to the write-back in WRITE, else to the end of the iteration (R170). -/
theorem inv_goto_afterCopy {s : State} (h : Inv s) (hp : s.phase = .copy) (hf : s.fault = false) :
    Inv (goto (afterCopy s.op) s) := by
  obtain ⟨ht, hd, hpast⟩ : Transferring s ∧ DrumSought s ∧ PastTarget s := h.atPhase hp
  unfold afterCopy
  split
  · next hop => exact inv_goto h.bounded hf (by decide) ⟨ht, hd, hpast, hop⟩
  · exact inv_goto h.bounded hf (by decide) ⟨ht, hd⟩

theorem inv_of_stepCopy {s t : State} (h : Inv s) (hp : s.phase = .copy) (hf : s.fault = false)
    (ht : stepCopy s = .next t) : Inv t := by
  rcases stepCopy_cases ht with ⟨hm, hr, hc⟩ | ⟨_, rfl⟩
  · exact inv_of_copyByte h hp hf ((moreToMove_iff s).1 hm) ((roomInBlock_iff s).1 hr) hc
  · exact inv_goto_afterCopy h hp hf

theorem inv_stepWbSeek {s : State} (h : Inv s) (hp : s.phase = .wbSeek) (hf : s.fault = false) :
    Inv (stepWbSeek s) := by
  obtain ⟨ht, hd, hpast, hop⟩ : Transferring s ∧ DrumSought s ∧ PastTarget s ∧ _ := h.atPhase hp
  exact inv_issueInLoop h.bounded hf (by decide) fun w _ => ⟨ht, hd, hpast, hop⟩

theorem inv_stepWbWrite {s : State} (h : Inv s) (hp : s.phase = .wbWrite) (hf : s.fault = false) :
    Inv (stepWbWrite s) := by
  obtain ⟨ht, hd, _⟩ : Transferring s ∧ DrumSought s ∧ _ := h.atPhase hp
  exact inv_issueInLoop h.bounded hf (by decide) fun w _ => ⟨ht, hd⟩

theorem inv_stepIterEnd {s : State} (h : Inv s) (hp : s.phase = .iterEnd) (hf : s.fault = false) :
    Inv (stepIterEnd s) := by
  obtain ⟨⟨hop, _⟩, _, hd⟩ : Transferring s ∧ DrumSought s := h.atPhase hp
  exact inv_goto (bounded_clearFirst h.bounded) hf (by decide) ⟨hop, fun _ => hd⟩

theorem inv_stepMMount {s : State} (h : Inv s) (hp : s.phase = .mMount) (hf : s.fault = false) :
    Inv (stepMMount s) := by
  have hop : s.op = .mount := h.atPhase hp
  rcases issue_cases .mount 0 0 s (goto .mFormat) (endOperation .mountFailure)
    with ⟨_, he⟩ | ⟨w, _, ⟨_, he⟩ | ⟨_, he⟩⟩ <;> rw [stepMMount, he]
  · exact inv_enterFault h.bounded
  · exact inv_endOperation _ (bounded_submit w _ h.bounded) hf
  · exact inv_goto (bounded_submit w _ h.bounded) hf (by decide) hop

theorem inv_stepMFormat {s : State} (h : Inv s) (hf : s.fault = false) : Inv (stepMFormat s) := by
  rcases issueThen_cases .formatDrum 0 0 s (endOperation .ok) with ⟨_, he⟩ | ⟨w, _, he⟩ <;> rw [stepMFormat, he]
  · exact inv_enterFault h.bounded
  · exact inv_endOperation _ (bounded_submit w _ h.bounded) hf

theorem inv_stepUUnmount {s : State} (h : Inv s) (hf : s.fault = false) : Inv (stepUUnmount s) := by
  rcases issue_cases .unmount 0 0 s (endOperation .ok) (endOperation .unmountFailure)
    with ⟨_, he⟩ | ⟨w, _, ⟨_, he⟩ | ⟨_, he⟩⟩ <;> rw [stepUUnmount, he]
  · exact inv_enterFault h.bounded
  · exact inv_endOperation _ (bounded_submit w _ h.bounded) hf
  · exact inv_endOperation _ (bounded_submit w _ h.bounded) hf

/-- Settles O35: `Inv` is taken apart into the bounds and the entry of the phase, and each phase's step leads from its
entry to the next one. -/
theorem stepKeepsInv : Obligations.StepKeepsInv := by
  intro s t h ht
  obtain ⟨hh, hcases⟩ := step_cases ht
  obtain ⟨hf, _⟩ := (not_halted_iff s).1 hh
  rcases hcases with ⟨hp, hi⟩ | ⟨hp, rfl⟩ | ⟨hp, rfl⟩ | ⟨hp, rfl⟩ | ⟨hp, rfl⟩ | ⟨hp, rfl⟩ | ⟨hp, rfl⟩ | ⟨hp, rfl⟩ |
    ⟨hp, rfl⟩ | ⟨hp, hc⟩ | ⟨hp, rfl⟩ | ⟨hp, rfl⟩ | ⟨hp, rfl⟩ | ⟨hp, rfl⟩ | ⟨hp, rfl⟩ | ⟨hp, rfl⟩
  · exact inv_of_stepIdle h hp hf hi
  · exact inv_stepLTest h hp hf
  · exact inv_stepValidate h hp hf
  · exact inv_stepFirst h hp hf
  · exact inv_stepSeekDrum h hp hf
  · exact inv_stepSeekBlock h hp hf
  · exact inv_stepRoll h hp hf
  · exact inv_stepDread h hp hf
  · exact inv_stepInc h hp hf
  · exact inv_of_stepCopy h hp hf hc
  · exact inv_stepWbSeek h hp hf
  · exact inv_stepWbWrite h hp hf
  · exact inv_stepIterEnd h hp hf
  · exact inv_stepMMount h hp hf
  · exact inv_stepMFormat h hf
  · exact inv_stepUUnmount h hf

end Sys2Proof.Machine
end

section
/-! PROOF. O38 and O39: where the fault EncodeOverflow can and cannot be reached (00_scope.md R10). -/

namespace Sys2Proof.Machine

/-! ### Steps of a transfer that do not fault -/

/-- Every 22-bit `block` fits ParamB. -/
theorem blockParam_fits (s : State) : (blockParam s).toNat < 4194304 :=
  (blockParam_toNat s).symm ▸ s.block.isLt

theorem previousBlockParam_fits (s : State) : (previousBlockParam s).toNat < 4194304 :=
  (previousBlockParam_toNat s).symm ▸ (s.block - 1).isLt

/-- A command of the loop with the drum as ParamA, where the drum fits. -/
theorem issueInLoop_drumParam_phase {k : OpKind} {b : Word} {p : Phase} {s : State}
    (hc : s.cfg.checkStatusInLoop = false) (hd : s.drum.toNat < 16) (hb : b.toNat < 4194304) :
    (issueInLoop k (drumParam s) b p s).phase = p :=
  issueInLoop_phase_of_fits hc ((drumParam_toNat s).symm ▸ hd) hb

/-- A command of the loop with 0 as ParamA. -/
theorem issueInLoop_zero_phase {k : OpKind} {b : Word} {p : Phase} {s : State}
    (hc : s.cfg.checkStatusInLoop = false) (hb : b.toNat < 4194304) : (issueInLoop k 0 b p s).phase = p :=
  issueInLoop_phase_of_fits hc (by decide) hb

theorem stepLTest_phase_ne_fault (s : State) : (stepLTest s).phase ≠ .fault := by
  unfold stepLTest
  split <;> simp

theorem stepValidate_phase_ne_fault (s : State) : (stepValidate s).phase ≠ .fault := by
  unfold stepValidate
  split <;> simp

theorem stepFirst_phase_ne_fault (s : State) : (stepFirst s).phase ≠ .fault := by
  unfold stepFirst
  split <;> simp

/-- ROLL does not fault where either no rollover is due or the new drum fits ParamA. -/
theorem stepRoll_phase_of_fits {s : State} (hc : s.cfg.checkStatusInLoop = false)
    (h : rolloverDue s = true → (rollOver s).drum.toNat < 16) : (stepRoll s).phase = .dread := by
  unfold stepRoll
  split
  · next hr => exact issueInLoop_drumParam_phase hc (h hr) (by decide)
  · rfl

theorem copyByte_phase {s t : State} (h : copyByte s = .next t) : t.phase = s.phase := by
  rcases copyByte_cases h with ⟨_, _, _, rfl⟩ | ⟨_, rfl⟩ | ⟨_, rfl⟩ <;> rfl

theorem afterCopy_ne_fault (op : HostOp) : afterCopy op ≠ .fault := by
  unfold afterCopy
  split <;> simp

theorem stepCopy_phase_ne_fault {s t : State} (hp : s.phase = .copy) (h : stepCopy s = .next t) :
    t.phase ≠ .fault := by
  rcases stepCopy_cases h with ⟨_, _, hc⟩ | ⟨_, rfl⟩
  · simp [copyByte_phase hc, hp]
  · exact afterCopy_ne_fault s.op

/-- In a small volume a rollover that is due leads to a drum that fits ParamA: with a block bound below the threshold
none is due after the range check, and with at most 15 drums the next one is at most 15. -/
theorem rollOver_drum_fits {s : State} (h : Inv s) (hp : s.phase = .roll)
    (hsmall : s.cfg.maxDrumCount ≤ 15 ∨ s.cfg.maxBlockId < 256) (hr : rolloverDue s = true) :
    (rollOver s).drum.toNat < 16 := by
  obtain ⟨_, ⟨_, hdrum, hblock⟩, hd⟩ : Transferring s ∧ Checked s ∧ _ := h.atPhase hp
  obtain ⟨_, hthreshold, _⟩ := h.configured
  have hdue := (rolloverDue_iff s).1 hr
  rw [hthreshold, blockSize] at hdue
  rw [rollOver_drum_toNat (by omega)]
  omega

/-- Settles O38, phase by phase: every parameter of every command fits, so no step takes the fault. -/
theorem overflowUnreachableInSmallVolumes : Obligations.OverflowUnreachableInSmallVolumes := by
  intro s t h hmem hdrums hsmall ht
  obtain ⟨_, _, hc, _⟩ := h.configured
  obtain ⟨_, hcases⟩ := step_cases ht
  rcases hcases with ⟨hp, _⟩ | ⟨_, rfl⟩ | ⟨_, rfl⟩ | ⟨_, rfl⟩ | ⟨hp, rfl⟩ | ⟨_, rfl⟩ | ⟨hp, rfl⟩ | ⟨hp, rfl⟩ |
    ⟨_, rfl⟩ | ⟨hp, hcopy⟩ | ⟨_, rfl⟩ | ⟨hp, rfl⟩ | ⟨_, rfl⟩ | ⟨hp, _⟩ | ⟨hp, _⟩ | ⟨hp, _⟩
  · simp [hp, transferPhases] at hmem
  · exact stepLTest_phase_ne_fault s
  · exact stepValidate_phase_ne_fault s
  · exact stepFirst_phase_ne_fault s
  · obtain ⟨_, ⟨_, hd, _⟩, _⟩ : Transferring s ∧ Checked s ∧ _ := h.atPhase hp
    rw [stepSeekDrum, issueInLoop_drumParam_phase hc (Nat.lt_of_lt_of_le hd hdrums) (by decide)]
    decide
  · rw [stepSeekBlock, issueInLoop_zero_phase hc (blockParam_fits s)]
    decide
  · simp [stepRoll_phase_of_fits hc (rollOver_drum_fits h hp hsmall)]
  · obtain ⟨_, ⟨_, hd⟩, _⟩ : Transferring s ∧ DrumSought s ∧ _ := h.atPhase hp
    rw [stepDread, issueInLoop_drumParam_phase hc hd (blockParam_fits s)]
    decide
  · simp [stepInc]
  · exact stepCopy_phase_ne_fault hp hcopy
  · rw [stepWbSeek, issueInLoop_zero_phase hc (previousBlockParam_fits s)]
    decide
  · obtain ⟨_, ⟨_, hd⟩, _⟩ : Transferring s ∧ DrumSought s ∧ _ := h.atPhase hp
    rw [stepWbWrite, issueInLoop_drumParam_phase hc hd (blockParam_fits s)]
    decide
  · simp [stepIterEnd]
  all_goals simp [hp, transferPhases] at hmem

/-! ### A drum too wide for ParamA -/

theorem startTransfer_drum_toNat (dir : HostOp) (address length : Word) (s : State) :
    (startTransfer dir address length s).drum.toNat = address.toNat / 2 ^ 16 := by
  rw [startTransfer_drum, BitVec.toNat_setWidth_of_le (by decide), drumOf_toNat]

theorem startTransfer_block_toNat (dir : HostOp) (address length : Word) (s : State) :
    (startTransfer dir address length s).block.toNat = address.toNat / 2 ^ 8 % 2 ^ 8 := by
  rw [startTransfer_block, BitVec.toNat_setWidth_of_le (by decide), blockOf_toNat]

/-- The first four steps of a transfer whose drum is in range and does not fit ParamA: the loop test, the range check,
the first-iteration test and the SeekDrum that overflows. -/
theorem run_four_of_wideDrum {s : State} (hv : s.cfg.AsSpecified) (hp : s.phase = .lTest) (hf : s.fault = false)
    (hfirst : s.first = true) (hm : moreToMove s = true) (hr : inRange s = true) (hd : 16 ≤ s.drum.toNat) :
    Host.Core.run Sys2Proof.core 4 s = .next (enterFault (goto .seekDrum (cursorAtOffset s))) := by
  obtain ⟨_, hc, hflag⟩ := hv
  have htest : step s = .next (goto .validate s) := step_lTest_of_moreToMove hp hf hm
  have hrange : step (goto .validate s) = .next (goto .first s) := step_validate_of_inRange rfl hf hr
  have hseek : step (goto .first s) = .next (goto .seekDrum (cursorAtOffset s)) :=
    step_first_of_isFirstIteration rfl hf ((isFirstIteration_flag (s := goto .first s) hflag).trans hfirst)
  have hover : step (goto .seekDrum (cursorAtOffset s)) = .next (enterFault (goto .seekDrum (cursorAtOffset s))) :=
    step_seekDrum_of_overflow rfl hf hc hd
  rw [run_succ_of_step htest, run_succ_of_step hrange, run_succ_of_step hseek, run_succ_of_step hover]
  rfl

/-- Settles O39: the four steps after the start step, of which none but the last writes anything the host sees. -/
theorem wideDrumFaultsAtFirstSeek : Obligations.WideDrumFaultsAtFirstSeek := by
  intro s address length hready hv hcap hpos hwide hdrum hblock
  have hd := startTransfer_drum_toNat .read address length s
  have hb := startTransfer_block_toNat .read address length s
  have hrange : inRange (startTransfer .read address length s) = true :=
    (inRange_iff _).2 ⟨hd ▸ hdrum, hb ▸ hblock⟩
  have hmore : moreToMove (startTransfer .read address length s) = true := (moreToMove_iff _).2 hpos
  exact ⟨_, _, exec_hostRead_of_ready hready hcap,
    run_four_of_wideDrum hv.2 rfl hready.2 rfl hmore hrange (hd ▸ hwide), rfl, rfl, rfl, rfl, rfl⟩

end Sys2Proof.Machine
end

section
/-! PROOF. O42: what a step leaves to the host and to the device (00_scope.md R14, 10_state.md R20). -/

namespace Sys2Proof.Machine

/-- `t` has the configuration of `s`, the host's part of `s` but the bytes of HB, and the trace of `s`. -/
structure Silent (s t : State) : Prop where
  cfg : t.cfg = s.cfg
  hbCapacity : t.hbCapacity = s.hbCapacity
  hbFill : t.hbFill = s.hbFill
  trace : t.trace = s.trace

/-- The same, but for at most one exchange added to the trace (R14). -/
structure AddsAtMostOne (s t : State) : Prop where
  cfg : t.cfg = s.cfg
  hbCapacity : t.hbCapacity = s.hbCapacity
  hbFill : t.hbFill = s.hbFill
  trace : ∃ es : List Exchange, es.length ≤ 1 ∧ t.trace = s.trace ++ es

theorem AddsAtMostOne.of_silent {s t : State} (h : Silent s t) : AddsAtMostOne s t :=
  { h with trace := ⟨[], Nat.zero_le 1, by rw [h.trace, List.append_nil]⟩ }

/-- An update that submits nothing, then at most one exchange. -/
theorem AddsAtMostOne.after_silent {s u t : State} (h : Silent s u) (h' : AddsAtMostOne u t) : AddsAtMostOne s t where
  cfg := h'.cfg.trans h.cfg
  hbCapacity := h'.hbCapacity.trans h.hbCapacity
  hbFill := h'.hbFill.trans h.hbFill
  trace := h.trace ▸ h'.trace

/-- At most one exchange, then an update that submits nothing. -/
theorem AddsAtMostOne.then_silent {s u t : State} (h : AddsAtMostOne s u) (h' : Silent u t) : AddsAtMostOne s t where
  cfg := h'.cfg.trans h.cfg
  hbCapacity := h'.hbCapacity.trans h.hbCapacity
  hbFill := h'.hbFill.trans h.hbFill
  trace := h'.trace ▸ h.trace

/-! ### The updates -/

/-- A Submit is one exchange (44_device_primitive.md R200). -/
theorem addsAtMostOne_submit (w : Word) (m : Option Memory) (s : State) : AddsAtMostOne s (submit w m s) :=
  ⟨rfl, rfl, rfl, _, Nat.le_of_eq List.length_singleton, submit_trace w m s⟩

theorem silent_goto (p : Phase) (s : State) : Silent s (goto p s) := ⟨rfl, rfl, rfl, rfl⟩

theorem silent_endOperation (r : ResultCode) (s : State) : Silent s (endOperation r s) :=
  ⟨rfl, rfl, rfl, rfl⟩

theorem silent_enterFault (s : State) : Silent s (enterFault s) := ⟨rfl, rfl, rfl, rfl⟩

theorem silent_rollOver (s : State) : Silent s (rollOver s) := ⟨rfl, rfl, rfl, rfl⟩

theorem silent_withoutRequest (s : State) : Silent s (withoutRequest s) := ⟨rfl, rfl, rfl, rfl⟩

/-! ### The commands -/

/-- A command and what follows it, where what follows submits nothing. -/
theorem addsAtMostOne_issueThen {after : State → State} (hafter : ∀ u, Silent u (after u)) (k : OpKind) (a b : Word)
    (s : State) : AddsAtMostOne s (issueThen k a b s after) := by
  rcases issueThen_cases k a b s after with ⟨_, he⟩ | ⟨w, _, he⟩ <;> rw [he]
  · exact .of_silent (silent_enterFault s)
  · exact (addsAtMostOne_submit w _ s).then_silent (hafter _)

theorem addsAtMostOne_issue {good bad : State → State} (hgood : ∀ u, Silent u (good u))
    (hbad : ∀ u, Silent u (bad u)) (k : OpKind) (a b : Word) (s : State) :
    AddsAtMostOne s (issue k a b s good bad) := by
  rcases issue_cases k a b s good bad with ⟨_, he⟩ | ⟨w, _, ⟨_, he⟩ | ⟨_, he⟩⟩ <;> rw [he]
  · exact .of_silent (silent_enterFault s)
  · exact (addsAtMostOne_submit w _ s).then_silent (hbad _)
  · exact (addsAtMostOne_submit w _ s).then_silent (hgood _)

/-- Also where the loop looks at the statuses (93 U2). -/
theorem addsAtMostOne_issueInLoop (k : OpKind) (a b : Word) (p : Phase) (s : State) :
    AddsAtMostOne s (issueInLoop k a b p s) := by
  unfold issueInLoop
  split
  · exact addsAtMostOne_issue (silent_goto p) (silent_endOperation _) k a b s
  · exact addsAtMostOne_issueThen (silent_goto p) k a b s

/-! ### The steps -/

theorem addsAtMostOne_of_ranTo {s t : State} (h : RanTo s t) : AddsAtMostOne s t := by
  cases h with
  | submitted k w => exact addsAtMostOne_submit w _ s
  | faulted => exact .of_silent (silent_enterFault s)
  | adecDriven lines => exact .of_silent ⟨rfl, rfl, rfl, rfl⟩
  | dceDriven w => exact .of_silent ⟨rfl, rfl, rfl, rfl⟩
  | mountStarted => exact .of_silent ⟨rfl, rfl, rfl, rfl⟩
  | unmountStarted => exact .of_silent ⟨rfl, rfl, rfl, rfl⟩
  | transferStarted dir address length _ _ => exact .of_silent ⟨rfl, rfl, rfl, rfl⟩

theorem addsAtMostOne_of_stepIdle {s t : State} (h : stepIdle s = .next t) : AddsAtMostOne s t := by
  rcases stepIdle_ranTo h with rfl | hr
  · exact .of_silent ⟨rfl, rfl, rfl, rfl⟩
  · exact .after_silent (silent_withoutRequest s) (addsAtMostOne_of_ranTo hr)

theorem silent_stepLTest (s : State) : Silent s (stepLTest s) := by
  unfold stepLTest
  split
  · exact silent_goto _ s
  · exact silent_endOperation _ s

theorem silent_stepValidate (s : State) : Silent s (stepValidate s) := by
  unfold stepValidate
  split
  · exact silent_goto _ s
  · exact silent_endOperation _ s

theorem silent_stepFirst (s : State) : Silent s (stepFirst s) := by
  unfold stepFirst
  split <;> exact ⟨rfl, rfl, rfl, rfl⟩

theorem addsAtMostOne_stepRoll (s : State) : AddsAtMostOne s (stepRoll s) := by
  unfold stepRoll
  split
  · exact .after_silent (silent_rollOver s) (addsAtMostOne_issueInLoop _ _ _ _ _)
  · exact .of_silent (silent_goto _ s)

theorem silent_of_copyByte {s t : State} (h : copyByte s = .next t) : Silent s t := by
  rcases copyByte_cases h with ⟨_, _, _, rfl⟩ | ⟨_, rfl⟩ | ⟨_, rfl⟩ <;>
    exact ⟨rfl, rfl, rfl, rfl⟩

theorem silent_of_stepCopy {s t : State} (h : stepCopy s = .next t) : Silent s t := by
  rcases stepCopy_cases h with ⟨_, _, hc⟩ | ⟨_, rfl⟩
  · exact silent_of_copyByte hc
  · exact silent_goto _ s

/-- Every step, of every phase and in every configuration, adds at most one exchange. -/
theorem addsAtMostOne_of_step {s t : State} (h : step s = .next t) : AddsAtMostOne s t := by
  obtain ⟨_, hcases⟩ := step_cases h
  rcases hcases with ⟨_, hi⟩ | ⟨_, rfl⟩ | ⟨_, rfl⟩ | ⟨_, rfl⟩ | ⟨_, rfl⟩ | ⟨_, rfl⟩ | ⟨_, rfl⟩ | ⟨_, rfl⟩ |
    ⟨_, rfl⟩ | ⟨_, hc⟩ | ⟨_, rfl⟩ | ⟨_, rfl⟩ | ⟨_, rfl⟩ | ⟨_, rfl⟩ | ⟨_, rfl⟩ | ⟨_, rfl⟩
  · exact addsAtMostOne_of_stepIdle hi
  · exact .of_silent (silent_stepLTest s)
  · exact .of_silent (silent_stepValidate s)
  · exact .of_silent (silent_stepFirst s)
  · exact addsAtMostOne_issueInLoop _ _ _ _ s
  · exact addsAtMostOne_issueInLoop _ _ _ _ s
  · exact addsAtMostOne_stepRoll s
  · exact addsAtMostOne_issueInLoop _ _ _ _ s
  · exact .of_silent ⟨rfl, rfl, rfl, rfl⟩
  · exact .of_silent (silent_of_stepCopy hc)
  · exact addsAtMostOne_issueInLoop _ _ _ _ s
  · exact addsAtMostOne_issueInLoop _ _ _ _ s
  · exact .of_silent ⟨rfl, rfl, rfl, rfl⟩
  · exact addsAtMostOne_issue (silent_goto _) (silent_endOperation _) _ _ _ s
  · exact addsAtMostOne_issueThen (silent_endOperation _) _ _ _ s
  · exact addsAtMostOne_issue (silent_endOperation _) (silent_endOperation _) _ _ _ s

/-- Settles O42: the step lemma, read as the statement has it. -/
theorem stepSubmitsAtMostOnce : Obligations.StepSubmitsAtMostOnce := by
  intro s t h
  obtain ⟨hcfg, hcap, hfill, htrace⟩ := addsAtMostOne_of_step h
  exact ⟨hcfg, hcap, hfill, htrace⟩

end Sys2Proof.Machine
end

section
/-! PROOF. O32: a step in IDLE runs the operation the next request decodes to (30_encoding.md R92). -/

namespace Sys2Proof.Machine

/-- With a request pending, IDLE runs what it decodes to in the state with the request taken off. -/
theorem stepIdle_of_request {s : State} {r : Request} {rest : List Request} (h : s.requests = r :: rest) :
    stepIdle s = runDecoded (decode s.cfg.opc r) { s with requests := rest } := by
  simp [stepIdle, h, withoutRequest]

/-- With no request IDLE waits (70_reset_and_hazards.md R252). -/
theorem stepIdle_of_no_request {s : State} (h : s.requests = []) : stepIdle s = .next s := by
  simp [stepIdle, h]

/-- Settles O32: the step of an idle block is the step of IDLE, and the three clauses are what the list of requests and
the decoder can answer. -/
theorem stepRunsTheDecodedRequest : Obligations.StepRunsTheDecodedRequest := by
  intro s hready
  rw [step_of_ready hready]
  refine ⟨fun r rest i hr hd => ?_, fun r rest e hr hd => ?_, stepIdle_of_no_request⟩
  · rw [stepIdle_of_request hr, hd]
    rfl
  · rw [stepIdle_of_request hr, hd]
    rfl

end Sys2Proof.Machine
end

section
/-! PROOF. O15 and O34: the FAULT phase stops everything (10_state.md R35, 60_exceptions.md R229), and the invariant holds
at reset (10_state.md R43). -/

namespace Sys2Proof.Machine

/-! ### The FAULT phase -/

theorem isHalted_of_fault_phase {s : State} (h : s.phase = .fault) : isHalted s = true := by
  simp [isHalted, h]

theorem step_of_halted {s : State} (h : isHalted s = true) : step s = .fault .halted := by
  simp [step, blockStep, h]

theorem deviceCommand_of_halted {s : State} (h : isHalted s = true) (k : OpKind) (a b : Word) :
    deviceCommand k a b s = .fault .halted := by
  simp [deviceCommand, h]

theorem acceptRequest_of_halted {s : State} (h : isHalted s = true) (start : State → State) :
    acceptRequest s start = .fault .halted := by
  simp [acceptRequest, h]

theorem acceptTransfer_of_halted {s : State} (h : isHalted s = true) (dir : HostOp) (address length : Word) :
    acceptTransfer dir address length s = .fault .halted := by
  simp [acceptTransfer, h]

theorem execHostMount_of_halted {s : State} (h : isHalted s = true) : execHostMount s = .fault .halted :=
  acceptRequest_of_halted h _

theorem execHostUnmount_of_halted {s : State} (h : isHalted s = true) : execHostUnmount s = .fault .halted :=
  acceptRequest_of_halted h _

/-- Settles O15: every meaning named is one of three shared operations, and each of them asks first whether the block has
halted, as `step` does. -/
theorem faultPhaseStopsEverything : Obligations.FaultPhaseStopsEverything := by
  intro s a n d b hp
  have h := isHalted_of_fault_phase hp
  exact ⟨step_of_halted h, execHostMount_of_halted h, execHostUnmount_of_halted h,
    acceptTransfer_of_halted h _ _ _, acceptTransfer_of_halted h _ _ _,
    deviceCommand_of_halted h _ _ _, deviceCommand_of_halted h _ _ _, deviceCommand_of_halted h _ _ _,
    deviceCommand_of_halted h _ _ _, deviceCommand_of_halted h _ _ _, deviceCommand_of_halted h _ _ _,
    deviceCommand_of_halted h _ _ _⟩

/-! ### Reset -/

/-- The bounds hold at reset: the memories are empty, the registers 0 and the configuration CFG-A of R9. -/
theorem bounded_reset : Bounded State.reset where
  configured := by decide
  bufferCanonical := reset_memories_wf.1
  hostCanonical := reset_memories_wf.2
  movedWithinLength := Nat.zero_le _
  lengthWithinCapacity := Nat.zero_le _
  cursorInBuffer := Nat.zero_le _
  blockBound := Nat.zero_le _
  drumBound := Nat.zero_le _

/-- Settles O34: the bounds, and IDLE asks for nothing more. -/
theorem invAtReset : Obligations.InvAtReset :=
  inv_of_atPhase (p := .idle) bounded_reset rfl (by decide) trivial

end Sys2Proof.Machine
end

section
/-! PROOF. O43 and O44: when a step writes `result` and `fault` (10_state.md R34, R35; 60_exceptions.md R229). -/

namespace Sys2Proof.Machine

/-- What a step from `s` to `t` does to `result` and `fault`: it writes neither, or it ends a host operation, or it takes
the fault EncodeOverflow and writes nothing the host or the device sees. -/
inductive FlagEffect (s t : State) : Prop where
  | keeps (hfault : t.fault = s.fault) (hresult : t.result = s.result)
  | ends (hfrom : s.phase ≠ .idle) (hto : t.phase = .idle) (hfault : t.fault = s.fault)
  | faults (hto : t.phase = .fault) (htrace : t.trace = s.trace) (hresult : t.result = s.result) (hbb : t.bb = s.bb)
      (hhb : t.hb = s.hb)

/-! ### The updates -/

theorem flagEffect_enterFault (s : State) : FlagEffect s (enterFault s) := .faults rfl rfl rfl rfl rfl

theorem flagEffect_endOperation_submit {s : State} (hs : s.phase ≠ .idle) (r : ResultCode) (w : Word)
    (m : Option Memory) : FlagEffect s (endOperation r (submit w m s)) := .ends hs rfl rfl

theorem flagEffect_goto_submit (s : State) (p : Phase) (w : Word) (m : Option Memory) :
    FlagEffect s (goto p (submit w m s)) := .keeps rfl rfl

/-- An update that writes none of the registers concerned may come first. -/
theorem FlagEffect.after_quiet {s u t : State} (h : FlagEffect u t) (hphase : u.phase = s.phase)
    (hfault : u.fault = s.fault) (hresult : u.result = s.result) (htrace : u.trace = s.trace) (hbb : u.bb = s.bb)
    (hhb : u.hb = s.hb) : FlagEffect s t := by
  cases h with
  | keeps hf hr => exact .keeps (hf.trans hfault) (hr.trans hresult)
  | ends hfrom hto hf => exact .ends (hphase ▸ hfrom) hto (hf.trans hfault)
  | faults hto ht hr hb hh =>
    exact .faults hto (ht.trans htrace) (hr.trans hresult) (hb.trans hbb) (hh.trans hhb)

/-! ### The commands -/

/-- A command inside the loop, also where the loop looks at the statuses (93 U2). -/
theorem flagEffect_issueInLoop {s : State} (hs : s.phase ≠ .idle) (k : OpKind) (a b : Word) (p : Phase) :
    FlagEffect s (issueInLoop k a b p s) := by
  unfold issueInLoop
  split
  · rcases issue_cases k a b s (goto p) (endOperation .deviceCommandFailure)
      with ⟨_, he⟩ | ⟨w, _, ⟨_, he⟩ | ⟨_, he⟩⟩ <;> rw [he]
    · exact flagEffect_enterFault s
    · exact flagEffect_endOperation_submit hs _ w _
    · exact flagEffect_goto_submit s p w _
  · rcases issueThen_cases k a b s (goto p) with ⟨_, he⟩ | ⟨w, _, he⟩ <;> rw [he]
    · exact flagEffect_enterFault s
    · exact flagEffect_goto_submit s p w _

/-! ### The steps -/

/-- No operation writes `result` when it is started or run in IDLE. -/
theorem flagEffect_of_ranTo {s t : State} (h : RanTo s t) : FlagEffect s t := by
  cases h with
  | faulted => exact flagEffect_enterFault s
  | submitted k w => exact .keeps rfl rfl
  | adecDriven lines => exact .keeps rfl rfl
  | dceDriven w => exact .keeps rfl rfl
  | mountStarted => exact .keeps rfl rfl
  | unmountStarted => exact .keeps rfl rfl
  | transferStarted dir address length _ _ => exact .keeps rfl rfl

theorem flagEffect_of_stepIdle {s t : State} (h : stepIdle s = .next t) : FlagEffect s t := by
  rcases stepIdle_ranTo h with rfl | hr
  · exact .keeps rfl rfl
  · exact (flagEffect_of_ranTo hr).after_quiet rfl rfl rfl rfl rfl rfl

theorem flagEffect_stepLTest {s : State} (hs : s.phase ≠ .idle) : FlagEffect s (stepLTest s) := by
  unfold stepLTest
  split
  · exact .keeps rfl rfl
  · exact .ends hs rfl rfl

theorem flagEffect_stepValidate {s : State} (hs : s.phase ≠ .idle) : FlagEffect s (stepValidate s) := by
  unfold stepValidate
  split
  · exact .keeps rfl rfl
  · exact .ends hs rfl rfl

theorem flagEffect_stepFirst (s : State) : FlagEffect s (stepFirst s) := by
  unfold stepFirst
  split <;> exact .keeps rfl rfl

theorem flagEffect_stepRoll {s : State} (hs : s.phase ≠ .idle) : FlagEffect s (stepRoll s) := by
  unfold stepRoll
  split
  · exact (flagEffect_issueInLoop (s := rollOver s) hs _ _ _ _).after_quiet rfl rfl rfl rfl rfl rfl
  · exact .keeps rfl rfl

theorem flagEffect_of_stepCopy {s t : State} (h : stepCopy s = .next t) : FlagEffect s t := by
  rcases stepCopy_cases h with ⟨_, _, hc⟩ | ⟨_, rfl⟩
  · rcases copyByte_cases hc with ⟨_, _, _, rfl⟩ | ⟨_, rfl⟩ | ⟨_, rfl⟩ <;> exact .keeps rfl rfl
  · exact .keeps rfl rfl

theorem flagEffect_stepMMount {s : State} (hs : s.phase ≠ .idle) : FlagEffect s (stepMMount s) := by
  rcases issue_cases .mount 0 0 s (goto .mFormat) (endOperation .mountFailure)
    with ⟨_, he⟩ | ⟨w, _, ⟨_, he⟩ | ⟨_, he⟩⟩ <;> rw [stepMMount, he]
  · exact flagEffect_enterFault s
  · exact flagEffect_endOperation_submit hs _ w _
  · exact flagEffect_goto_submit s _ w _

theorem flagEffect_stepMFormat {s : State} (hs : s.phase ≠ .idle) : FlagEffect s (stepMFormat s) := by
  rcases issueThen_cases .formatDrum 0 0 s (endOperation .ok) with ⟨_, he⟩ | ⟨w, _, he⟩ <;> rw [stepMFormat, he]
  · exact flagEffect_enterFault s
  · exact flagEffect_endOperation_submit hs _ w _

theorem flagEffect_stepUUnmount {s : State} (hs : s.phase ≠ .idle) : FlagEffect s (stepUUnmount s) := by
  rcases issue_cases .unmount 0 0 s (endOperation .ok) (endOperation .unmountFailure)
    with ⟨_, he⟩ | ⟨w, _, ⟨_, he⟩ | ⟨_, he⟩⟩ <;> rw [stepUUnmount, he]
  · exact flagEffect_enterFault s
  · exact flagEffect_endOperation_submit hs _ w _
  · exact flagEffect_endOperation_submit hs _ w _

/-- Every step has one of the three effects, in every configuration. -/
theorem flagEffect_of_step {s t : State} (h : step s = .next t) : FlagEffect s t := by
  obtain ⟨_, hcases⟩ := step_cases h
  rcases hcases with ⟨_, hi⟩ | ⟨hp, rfl⟩ | ⟨hp, rfl⟩ | ⟨_, rfl⟩ | ⟨hp, rfl⟩ | ⟨hp, rfl⟩ | ⟨hp, rfl⟩ | ⟨hp, rfl⟩ |
    ⟨_, rfl⟩ | ⟨_, hc⟩ | ⟨hp, rfl⟩ | ⟨hp, rfl⟩ | ⟨_, rfl⟩ | ⟨hp, rfl⟩ | ⟨hp, rfl⟩ | ⟨hp, rfl⟩
  · exact flagEffect_of_stepIdle hi
  · exact flagEffect_stepLTest (by simp [hp])
  · exact flagEffect_stepValidate (by simp [hp])
  · exact flagEffect_stepFirst s
  · exact flagEffect_issueInLoop (by simp [hp]) _ _ _ _
  · exact flagEffect_issueInLoop (by simp [hp]) _ _ _ _
  · exact flagEffect_stepRoll (by simp [hp])
  · exact flagEffect_issueInLoop (by simp [hp]) _ _ _ _
  · exact .keeps rfl rfl
  · exact flagEffect_of_stepCopy hc
  · exact flagEffect_issueInLoop (by simp [hp]) _ _ _ _
  · exact flagEffect_issueInLoop (by simp [hp]) _ _ _ _
  · exact .keeps rfl rfl
  · exact flagEffect_stepMMount (by simp [hp])
  · exact flagEffect_stepMFormat (by simp [hp])
  · exact flagEffect_stepUUnmount (by simp [hp])

/-- Settles O43: of the three effects of a step only the end of an operation writes `result`. -/
theorem resultWrittenAtTheEnd : Obligations.ResultWrittenAtTheEnd := by
  intro s t h hne
  cases flagEffect_of_step h with
  | keeps _ hresult => exact absurd hresult hne
  | ends hfrom hto _ => exact ⟨hfrom, hto⟩
  | faults _ _ hresult _ _ => exact absurd hresult hne

/-- Settles O44: a step is enabled with `fault` clear only, and of its three effects only the fault EncodeOverflow sets
it. -/
theorem faultFlagIsSticky : Obligations.FaultFlagIsSticky := by
  intro s t h
  obtain ⟨hh, _⟩ := step_cases h
  obtain ⟨hf, _⟩ := (not_halted_iff s).1 hh
  refine ⟨hf, fun ht => ?_⟩
  cases flagEffect_of_step h with
  | keeps hfault _ => simp [hfault, hf] at ht
  | ends _ _ hfault => simp [hfault, hf] at ht
  | faults hto htrace hresult hbb hhb => exact ⟨hto, htrace, hresult, hbb, hhb⟩

end Sys2Proof.Machine
end

section
/-! PROOF. O37: no step of READ or WRITE stops, and no step reads a byte of BB without a value (10_state.md R38). -/

namespace Sys2Proof.Machine

/-! ### The faults of an operation -/

theorem deviceCommand_stops {k : OpKind} {a b : Word} {s : State} {f : Fault} (h : deviceCommand k a b s = .fault f) :
    f = .halted := by
  unfold deviceCommand at h
  split at h <;> cases h
  rfl

theorem acceptRequest_stops {s : State} {start : State → State} {f : Fault} (h : acceptRequest s start = .fault f) :
    f = .halted := by
  unfold acceptRequest at h
  repeat' split at h
  all_goals cases h
  rfl

theorem execHostMount_stops {s : State} {f : Fault} (h : execHostMount s = .fault f) : f = .halted :=
  acceptRequest_stops h

theorem execHostUnmount_stops {s : State} {f : Fault} (h : execHostUnmount s = .fault f) : f = .halted :=
  acceptRequest_stops h

theorem acceptTransfer_stops {dir : HostOp} {address length : Word} {s : State} {f : Fault}
    (h : acceptTransfer dir address length s = .fault f) : f = .halted := by
  unfold acceptTransfer at h
  repeat' split at h
  all_goals cases h
  rfl

/-- ENCODE that overflows answers a next state in FAULT (40_command_encoder.md R113). -/
theorem execEncode_ne_fault (k : OpKind) (a b : Word) (s : State) (f : Fault) : execEncode k a b s ≠ .fault f := by
  unfold execEncode
  split <;> simp

/-- No operation stops with a fault but for a block that has halted. -/
theorem exec_stops {i : Instr} {s : State} {f : Fault} (h : exec i s = .fault f) : f = .halted := by
  cases i with
  | cmdMount => exact deviceCommand_stops h
  | cmdUnmount => exact deviceCommand_stops h
  | cmdFormatDrum d b => exact deviceCommand_stops h
  | cmdSeekDrum d => exact deviceCommand_stops h
  | cmdSeekBlock b => exact deviceCommand_stops h
  | cmdDiskRead d b => exact deviceCommand_stops h
  | cmdDiskWrite d b => exact deviceCommand_stops h
  | hostMount => exact execHostMount_stops h
  | hostUnmount => exact execHostUnmount_stops h
  | hostRead a n => exact acceptTransfer_stops h
  | hostWrite a n => exact acceptTransfer_stops h
  | drumOf a => cases h
  | blockOf a => cases h
  | offsetOf a => cases h
  | decompose a => cases h
  | encode k a b => exact absurd h (execEncode_ne_fault k a b s f)

/-! ### The faults of a step -/

theorem stepIdle_stops {s : State} {f : Fault} (h : stepIdle s = .fault f) : f = .halted := by
  unfold stepIdle runDecoded at h
  split at h
  · cases h
  · split at h
    · exact exec_stops h
    · cases h

/-- A step that stops with a fault: the block has halted, or the copy step of READ found no value. -/
theorem step_stops {s : State} {f : Fault} (h : step s = .fault f) : f = .halted ∨ s.phase = .copy := by
  unfold step blockStep at h
  split at h
  · exact .inl (by cases h; rfl)
  · unfold phaseStep at h
    split at h
    case h_1 => exact .inl (stepIdle_stops h)
    case h_10 hp => exact .inr hp
    case h_17 => exact .inl (by cases h; rfl)
    all_goals cases h

/-! ### The steps of a transfer -/

/-- With BB whole, the copy of one byte answers a next state. -/
theorem copyByte_next {s : State} (hbb : bufferFull s.bb) (hroom : s.cursor.toNat < 256) :
    ∃ t, copyByte s = .next t := by
  obtain ⟨v, hv⟩ := Option.isSome_iff_exists.1 (hbb _ hroom)
  cases hop : s.op <;> exact ⟨_, by simp only [copyByte, hop, hv]; rfl⟩

theorem stepCopy_next {s : State} (hbb : bufferFull s.bb) : ∃ t, stepCopy s = .next t := by
  unfold stepCopy
  split
  · next hc => exact copyByte_next hbb ((roomInBlock_iff s).1 (Bool.and_eq_true_iff.1 hc).2)
  · exact ⟨_, rfl⟩

/-- In every phase of a transfer the step answers a next state; only COPY depends on what `Inv` knows of BB. -/
theorem step_next_of_transfer {s : State} (h : Inv s) (hmem : s.phase ∈ transferPhases) : ∃ t, step s = .next t := by
  have hrun : Running s := by
    have hp : s.phase ≠ .fault := by
      rintro hp
      simp [hp, transferPhases] at hmem
    exact ⟨hp, by simpa [hp] using h.faultWithPhase⟩
  rw [step_of_running hrun]
  unfold phaseStep
  split
  case h_1 hp => simp [hp, transferPhases] at hmem
  case h_10 hp =>
    obtain ⟨_, _, _, _, hfull⟩ : Transferring s ∧ DrumSought s ∧ PastTarget s := h.atPhase hp
    exact stepCopy_next hfull
  case h_17 hp => exact absurd hp hrun.1
  all_goals exact ⟨_, rfl⟩

/-- Settles O37: only COPY could stop so, and `Inv` has BB whole there. -/
theorem transfersNeverStop : Obligations.TransfersNeverStop := by
  refine fun s h => ⟨fun i hi => ?_, step_next_of_transfer h⟩
  rcases step_stops hi with hhalted | hp
  · cases hhalted
  · obtain ⟨t, ht⟩ := step_next_of_transfer h (by simp [hp, transferPhases])
    simp [ht] at hi

end Sys2Proof.Machine
end

section
/-! PROOF. O49: the frame of HB over a whole transfer (10_state.md R40, 20_memory.md R53), by an induction over XFER made
once for every predicate its updates keep. -/

namespace Sys2Proof.Machine

/-! ### A predicate kept by the updates holds where XFER ends -/

/-- The updates XFER is made of keep `P`; a byte is copied only while bytes are left to move (R169). -/
structure KeptByUpdates (P : State → Prop) : Prop where
  submit : ∀ {s} (k : OpKind) (w : Word), P s → P (submit w (bufferArg k s) s)
  enterFault : ∀ {s}, P s → P (enterFault s)
  endOperation : ∀ {s} (r : ResultCode), P s → P (endOperation r s)
  cursorAtOffset : ∀ {s}, P s → P (cursorAtOffset s)
  cursorAtZero : ∀ {s}, P s → P (cursorAtZero s)
  rollOver : ∀ {s}, P s → P (rollOver s)
  nextBlock : ∀ {s}, P s → P (nextBlock s)
  clearFirst : ∀ {s}, P s → P (clearFirst s)
  copyByte : ∀ {s t}, P s → moreToMove s = true → copyByte s = .next t → P t

/-- Where a part of XFER leaves off in a state, that state satisfies `P`. -/
def Flow.Lands (P : State → Prop) : Flow → Prop
  | .goesOn t => P t
  | .ends o => ∀ u, o = .next u → P u

theorem Flow.Lands.flowThen {P : State → Prop} {f : Flow} {k : State → Flow} (hf : f.Lands P)
    (hk : ∀ t, P t → (k t).Lands P) : (flowThen f k).Lands P := by
  cases f with
  | goesOn t => exact hk t hf
  | ends o => exact hf

theorem Flow.lands_ends_next {P : State → Prop} {t : State} (h : P t) : (Flow.ends (.next t)).Lands P := by
  rintro u ⟨⟩
  exact h

section
variable {P : State → Prop} (hP : KeptByUpdates P)
include hP

theorem lands_xferCommand (k : OpKind) (a b : Word) {s : State} (h : P s) : (xferCommand k a b s).Lands P := by
  unfold xferCommand
  split
  · exact Flow.lands_ends_next (hP.enterFault h)
  · next w _ =>
    split
    · exact Flow.lands_ends_next (hP.endOperation _ (hP.submit k w h))
    · exact hP.submit k w h

theorem lands_xferFirst {s : State} (h : P s) : (xferFirst s).Lands P := by
  unfold xferFirst
  split
  · exact (lands_xferCommand hP _ _ _ (hP.cursorAtOffset h)).flowThen fun _ ht => lands_xferCommand hP _ _ _ ht
  · exact hP.cursorAtZero h

theorem lands_xferRoll {s : State} (h : P s) : (xferRoll s).Lands P := by
  unfold xferRoll
  split
  · exact lands_xferCommand hP _ _ _ (hP.rollOver h)
  · exact h

theorem lands_xferCopy (n : Nat) {s : State} (h : P s) : (xferCopy n s).Lands P := by
  induction n generalizing s with
  | zero => exact h
  | succ n ih =>
    unfold xferCopy
    split
    · next hc =>
      split
      · next t ht => exact ih (hP.copyByte h (Bool.and_eq_true_iff.1 hc).1 ht)
      · rintro u ⟨⟩
      · rintro u ⟨⟩
    · exact h

theorem lands_xferWriteBack {s : State} (h : P s) : (xferWriteBack s).Lands P := by
  unfold xferWriteBack
  split
  · exact (lands_xferCommand hP _ _ _ h).flowThen fun _ ht => lands_xferCommand hP _ _ _ ht
  · exact h

/-- The six parts of an iteration, one after another. -/
theorem lands_xferBlock {s : State} (h : P s) : (xferBlock s).Lands P := by
  unfold xferBlock
  split
  · refine (lands_xferFirst hP h).flowThen fun _ hfirst => ?_
    refine (lands_xferRoll hP hfirst).flowThen fun _ hroll => ?_
    refine (lands_xferCommand hP _ _ _ hroll).flowThen fun _ hread => ?_
    refine (lands_xferCopy hP _ (hP.nextBlock hread)).flowThen fun _ hcopy => ?_
    exact (lands_xferWriteBack hP hcopy).flowThen fun _ hback => hP.clearFirst hback
  · exact Flow.lands_ends_next (hP.endOperation _ h)

theorem xferLoop_keeps (n : Nat) {s u : State} (h : P s) (hu : xferLoop n s = .next u) : P u := by
  induction n generalizing s with
  | zero =>
    cases hu
    exact hP.endOperation _ h
  | succ n ih =>
    have hblock := lands_xferBlock hP h
    unfold xferLoop at hu
    split at hu
    · split at hu
      · next t ht =>
        rw [ht] at hblock
        exact ih hblock hu
      · next o ho =>
        rw [ho] at hblock
        exact hblock u hu
    · cases hu
      exact hP.endOperation _ h

/-- However a transfer ends, what its start step establishes and its updates keep holds there. -/
theorem xfer_keeps {dir : HostOp} {address length : Word} {s u : State} (h : P (startTransfer dir address length s))
    (hu : xfer dir address length s = .next u) : P u :=
  xferLoop_keeps hP _ h hu

end

/-! ### The frame of HB -/

/-- What a transfer started in `s` leaves alone up to `t`: READ the bytes of HB at `length` or above, WRITE all of HB. -/
structure HostFrame (s t : State) : Prop where
  op : t.op = s.op
  length : t.length = s.length
  read : s.op = .read → ∀ i, s.length.toNat ≤ i → memRead t.hb i = memRead s.hb i
  write : s.op = .write → t.hb = s.hb

theorem HostFrame.refl (s : State) : HostFrame s s := ⟨rfl, rfl, fun _ _ _ => rfl, fun _ => rfl⟩

/-- READ writes HB below `length` only: the index is `transferred`, and bytes are left to move (R169). -/
theorem HostFrame.copyByte {s t u : State} (h : HostFrame s t) (hm : moreToMove t = true)
    (hu : Machine.copyByte t = .next u) : HostFrame s u := by
  obtain ⟨hop, hlength, hread, hwrite⟩ := h
  have hbelow : t.transferred.toNat < s.length.toNat := hlength ▸ (moreToMove_iff t).1 hm
  rcases copyByte_cases hu with ⟨ho, v, _, rfl⟩ | ⟨_, rfl⟩ | ⟨_, rfl⟩
  · refine ⟨hop, hlength, fun hr i hi => ?_, fun hw => ?_⟩
    · exact (memRead_memWrite_other t.hb v (by omega)).trans (hread hr i hi)
    · rw [hop, hw] at ho
      cases ho
  · exact ⟨hop, hlength, hread, hwrite⟩
  · exact ⟨hop, hlength, hread, hwrite⟩

/-- Every update but the copy of a byte leaves HB, `op` and `length` alone. -/
theorem hostFrame_keptByUpdates (s : State) : KeptByUpdates (HostFrame s) where
  submit _ _ h := { h with }
  enterFault h := { h with }
  endOperation _ h := { h with }
  cursorAtOffset h := { h with }
  cursorAtZero h := { h with }
  rollOver h := { h with }
  nextBlock h := { h with }
  clearFirst h := { h with }
  copyByte := HostFrame.copyByte

/-- From the start step, which leaves HB alone, to the end of the transfer. -/
theorem hostFrame_of_xfer {dir : HostOp} {address length : Word} {s u : State}
    (h : xfer dir address length s = .next u) : HostFrame (startTransfer dir address length s) u :=
  xfer_keeps (hostFrame_keptByUpdates _) (.refl _) h

/-- Settles O49: the frame of a transfer that was started as READ, and of one started as WRITE. -/
theorem hostBufferFrame : Obligations.HostBufferFrame :=
  fun _ _ _ _ => ⟨fun h => (hostFrame_of_xfer h).read rfl, fun h => (hostFrame_of_xfer h).write rfl⟩

end Sys2Proof.Machine
end

section
/-! PROOF. O50: no value is carried from one call to the next (10_state.md R41). Two runs of XFER are compared part by
part: the states differ in registers that no part reads, and at the start in `cursor`, which every iteration sets before
it reads it. -/

namespace Sys2Proof.Machine

/-! ### What an earlier call leaves behind -/

/-- `s` with the registers that no part of XFER reads as they stand in `r`. -/
def withUnread (r s : State) : State :=
  { s with result := r.result, fault := r.fault, requests := r.requests, adec := r.adec, dceWord := r.dceWord }

/-- `s` with everything the start step leaves as an earlier call left it in `r`: the same registers, and `cursor`. -/
def withLeftover (r s : State) : State := { withUnread r s with cursor := r.cursor }

/-- The start step writes or empties every other register (43_io_sequencer.md R155; log 5). -/
theorem startTransfer_eq_withLeftover {s s' : State} (hcfg : s'.cfg = s.cfg) (hhb : s'.hb = s.hb)
    (hfill : s'.hbFill = s.hbFill) (hcap : s'.hbCapacity = s.hbCapacity) (hanswers : s'.answers = s.answers)
    (htrace : s'.trace = s.trace) (dir : HostOp) (address length : Word) :
    startTransfer dir address length s' = withLeftover s' (startTransfer dir address length s) := by
  simp [startTransfer, withLeftover, withUnread, hcfg, hhb, hfill, hcap, hanswers, htrace]

/-- What the host and the device see where a transfer ends, `result` only of one that returned to IDLE. -/
structure SameEnd (u u' : State) : Prop where
  phase : u'.phase = u.phase
  hb : u'.hb = u.hb
  trace : u'.trace = u.trace
  answers : u'.answers = u.answers
  result : u.phase = .idle → u'.result = u.result

theorem sameEnd_enterFault (r s : State) : SameEnd (enterFault s) (enterFault (withUnread r s)) :=
  ⟨rfl, rfl, rfl, rfl, fun h => nomatch h⟩

theorem sameEnd_endOperation (c : ResultCode) (r s : State) :
    SameEnd (endOperation c s) (endOperation c (withLeftover r s)) :=
  ⟨rfl, rfl, rfl, rfl, fun _ => rfl⟩

/-! ### The tests, the operands and the updates do not read it -/

@[simp] theorem moreToMove_withUnread (r s : State) : moreToMove (withUnread r s) = moreToMove s := rfl
@[simp] theorem roomInBlock_withUnread (r s : State) : roomInBlock (withUnread r s) = roomInBlock s := rfl
@[simp] theorem rolloverDue_withUnread (r s : State) : rolloverDue (withUnread r s) = rolloverDue s := rfl
@[simp] theorem withUnread_op (r s : State) : (withUnread r s).op = s.op := rfl
@[simp] theorem withUnread_cfg (r s : State) : (withUnread r s).cfg = s.cfg := rfl
@[simp] theorem withUnread_bb (r s : State) : (withUnread r s).bb = s.bb := rfl
@[simp] theorem withUnread_cursor (r s : State) : (withUnread r s).cursor = s.cursor := rfl

theorem moreToMove_withLeftover (r s : State) : moreToMove (withLeftover r s) = moreToMove s := rfl
theorem inRange_withLeftover (r s : State) : inRange (withLeftover r s) = inRange s := rfl
theorem isFirstIteration_withLeftover (r s : State) : isFirstIteration (withLeftover r s) = isFirstIteration s := rfl

theorem bufferArg_withUnread (k : OpKind) (r s : State) : bufferArg k (withUnread r s) = bufferArg k s := by
  cases k <;> rfl

theorem submitFailed_withUnread (w : Word) (m : Option Memory) (r s : State) :
    submitFailed w m (withUnread r s) = submitFailed w m s := rfl

theorem submit_withUnread (w : Word) (m : Option Memory) (r s : State) :
    submit w m (withUnread r s) = withUnread r (submit w m s) := rfl

/-- The copy of a byte answers alike, or stops at the same byte. -/
theorem copyByte_withUnread (r s : State) :
    (∃ t, copyByte s = .next t ∧ copyByte (withUnread r s) = .next (withUnread r t)) ∨
    ∃ f, copyByte s = .fault f ∧ copyByte (withUnread r s) = .fault f := by
  simp only [copyByte, withUnread_op, withUnread_bb, withUnread_cursor]
  cases s.op with
  | read =>
    cases memRead s.bb s.cursor.toNat with
    | none => exact .inr ⟨_, rfl, rfl⟩
    | some v => exact .inl ⟨_, rfl, rfl⟩
  | write => exact .inl ⟨_, rfl, rfl⟩
  | mount => exact .inl ⟨_, rfl, rfl⟩
  | unmount => exact .inl ⟨_, rfl, rfl⟩

/-! ### The parts of XFER do not read it -/

/-- Two parts of XFER leave off alike: both go on, in states that differ in unread registers only, or both end, alike for
the host and the device. -/
inductive FlowAlike (r : State) : Flow → Flow → Prop where
  | goesOn (s : State) : FlowAlike r (.goesOn s) (.goesOn (withUnread r s))
  | returns {u u' : State} (h : SameEnd u u') : FlowAlike r (.ends (.next u)) (.ends (.next u'))
  | stops (f : Fault) : FlowAlike r (.ends (.fault f)) (.ends (.fault f))

theorem FlowAlike.flowThen {r : State} {f g : Flow} {k : State → Flow} (h : FlowAlike r f g)
    (hk : ∀ s, FlowAlike r (k s) (k (withUnread r s))) : FlowAlike r (flowThen f k) (flowThen g k) := by
  cases h with
  | goesOn s => exact hk s
  | returns h => exact .returns h
  | stops f => exact .stops f

theorem xferCommand_alike (k : OpKind) (a b : Word) (r s : State) :
    FlowAlike r (xferCommand k a b s) (xferCommand k a b (withUnread r s)) := by
  simp only [xferCommand, withUnread_cfg, bufferArg_withUnread, submitFailed_withUnread, submit_withUnread]
  cases encodeWord s.cfg.opc k a b with
  | none => exact .returns (sameEnd_enterFault r s)
  | some w =>
    dsimp only
    split
    · exact .returns ⟨rfl, rfl, rfl, rfl, fun _ => rfl⟩
    · exact .goesOn _

/-- The first-iteration test sets `cursor` on both sides, so what an earlier call left there is gone (R162). -/
theorem xferFirst_alike (r s : State) : FlowAlike r (xferFirst s) (xferFirst (withLeftover r s)) := by
  unfold xferFirst
  rw [isFirstIteration_withLeftover]
  split
  · exact (xferCommand_alike _ _ _ r (cursorAtOffset s)).flowThen fun t => xferCommand_alike _ _ _ r t
  · exact .goesOn (cursorAtZero s)

theorem xferRoll_alike (r s : State) : FlowAlike r (xferRoll s) (xferRoll (withUnread r s)) := by
  unfold xferRoll
  rw [rolloverDue_withUnread]
  split
  · exact xferCommand_alike _ _ _ r (rollOver s)
  · exact .goesOn s

theorem xferCopy_alike (n : Nat) (r s : State) : FlowAlike r (xferCopy n s) (xferCopy n (withUnread r s)) := by
  induction n generalizing s with
  | zero => exact .goesOn s
  | succ n ih =>
    unfold xferCopy
    rw [moreToMove_withUnread, roomInBlock_withUnread]
    split
    · rcases copyByte_withUnread r s with ⟨t, ht, ht'⟩ | ⟨f, hf, hf'⟩
      · rw [ht, ht']
        exact ih t
      · rw [hf, hf']
        exact .stops f
    · exact .goesOn s

theorem xferWriteBack_alike (r s : State) : FlowAlike r (xferWriteBack s) (xferWriteBack (withUnread r s)) := by
  unfold xferWriteBack
  rw [withUnread_op]
  split
  · exact (xferCommand_alike _ _ _ r s).flowThen fun t => xferCommand_alike _ _ _ r t
  · exact .goesOn s

/-- One iteration, whatever an earlier call left: the range check comes first, and then `cursor` is set. -/
theorem xferBlock_alike (r s : State) : FlowAlike r (xferBlock s) (xferBlock (withLeftover r s)) := by
  unfold xferBlock
  rw [inRange_withLeftover]
  split
  · refine (xferFirst_alike r s).flowThen fun s => ?_
    refine (xferRoll_alike r s).flowThen fun s => ?_
    refine (xferCommand_alike _ _ _ r s).flowThen fun s => ?_
    refine (xferCopy_alike _ r (nextBlock s)).flowThen fun s => ?_
    exact (xferWriteBack_alike r s).flowThen fun s => .goesOn (clearFirst s)
  · exact .returns (sameEnd_endOperation _ r s)

/-! ### The whole call -/

/-- The outer loop: between iterations the unread registers are leftovers again, with `cursor` alike. -/
theorem xferLoop_alike (n : Nat) (r s u : State) (hu : xferLoop n s = .next u) :
    ∃ u', xferLoop n (withLeftover r s) = .next u' ∧ SameEnd u u' := by
  induction n generalizing r s with
  | zero =>
    cases hu
    exact ⟨_, rfl, sameEnd_endOperation .ok r s⟩
  | succ n ih =>
    unfold xferLoop at hu ⊢
    rw [moreToMove_withLeftover]
    split at hu
    · next hm =>
      rw [if_pos hm]
      have hblock := xferBlock_alike r s
      generalize xferBlock s = f, xferBlock (withLeftover r s) = g at hblock hu
      cases hblock with
      | goesOn t => exact ih { r with cursor := t.cursor } t hu
      | returns h =>
        cases hu
        exact ⟨_, rfl, h⟩
      | stops f => cases hu
    · next hm =>
      rw [if_neg hm]
      cases hu
      exact ⟨_, rfl, sameEnd_endOperation .ok r s⟩

/-- Settles O50: after the start step the two runs differ in leftovers only, which the loop does not carry to the end. -/
theorem nothingCarriedBetweenCalls : Obligations.NothingCarriedBetweenCalls := by
  intro s s' u dir address length hcfg hhb hfill hcap hanswers htrace hu
  have hstart := startTransfer_eq_withLeftover hcfg hhb hfill hcap hanswers htrace dir address length
  obtain ⟨u', hu', hphase, hhb', htrace', hanswers', hresult⟩ :=
    xferLoop_alike length.toNat s' (startTransfer dir address length s) u hu
  exact ⟨u', by rw [xfer, hstart, hu'], hphase, hhb', htrace', hanswers', hresult⟩

end Sys2Proof.Machine
end

section
/-! PROOF. O1, O2 and O5: the word formats (30_encoding.md). The fields of a command word and OPC inverse are said once
as arithmetic, and DecodeCmd, ENCODE and the decoder are read through them. -/

namespace Sys2Proof.Machine

/-! ### The fields of a command word -/

theorem opCodeOf_toNat (w : Word) : (opCodeOf w).toNat = w.toNat / 2 ^ 26 := by
  have := w.isLt
  simp only [opCodeOf, BitVec.extractLsb'_toNat, Nat.shiftRight_eq_div_pow]
  omega

theorem paramAOf_toNat (w : Word) : (paramAOf w).toNat = w.toNat / 2 ^ 22 % 2 ^ 4 := by
  rw [paramAOf, BitVec.extractLsb'_toNat, Nat.shiftRight_eq_div_pow]

theorem paramBOf_toNat (w : Word) : (paramBOf w).toNat = w.toNat % 2 ^ 22 := by
  rw [paramBOf, BitVec.extractLsb'_toNat, Nat.shiftRight_zero]

/-! ### OPC and its inverse -/

theorem mem_opKind_all (k : OpKind) : k ∈ OpKind.all := by
  cases k <;> decide

theorem code_inj {m : OpcMap} (hm : m.Injective) {k k' : OpKind} (h : m.code k = m.code k') : k = k' :=
  List.inj_on_of_nodup_map hm (mem_opKind_all k) (mem_opKind_all k') h

/-- A code is reserved exactly when no kind has it (R89). -/
theorem kindOfCode_eq_none_iff (m : OpcMap) (c : BitVec 6) : kindOfCode m c = none ↔ ∀ k, m.code k ≠ c := by
  simp [kindOfCode, mem_opKind_all]

/-- OPC inverse answers only a kind that has the code. -/
theorem code_of_kindOfCode {m : OpcMap} {c : BitVec 6} {k : OpKind} (h : kindOfCode m c = some k) : m.code k = c := by
  simpa using List.find?_some h

/-- Under an injective OPC, OPC inverse answers the one kind that has the code (R91). -/
theorem kindOfCode_eq_some_iff {m : OpcMap} (hm : m.Injective) (c : BitVec 6) (k : OpKind) :
    kindOfCode m c = some k ↔ m.code k = c := by
  refine ⟨code_of_kindOfCode, fun hk => ?_⟩
  cases hfound : kindOfCode m c with
  | none => exact absurd hk ((kindOfCode_eq_none_iff m c).mp hfound k)
  | some k' => rw [code_inj hm ((code_of_kindOfCode hfound).trans hk.symm)]

/-! ### DecodeCmd -/

theorem decodeCmd_eq_none_iff (m : OpcMap) (w : Word) : decodeCmd m w = none ↔ ∀ k, m.code k ≠ opCodeOf w := by
  rw [decodeCmd, Option.map_eq_none_iff, kindOfCode_eq_none_iff]

theorem decodeCmd_eq_some_iff {m : OpcMap} (hm : m.Injective) (w : Word) (k : OpKind) (a : BitVec 4) (b : BitVec 22) :
    decodeCmd m w = some (k, a, b) ↔ m.code k = opCodeOf w ∧ a = paramAOf w ∧ b = paramBOf w := by
  rw [← kindOfCode_eq_some_iff hm]
  simp only [decodeCmd, Option.map_eq_some_iff, Prod.mk.injEq]
  constructor
  · rintro ⟨k', hk, rfl, ha, hb⟩
    exact ⟨hk, ha.symm, hb.symm⟩
  · rintro ⟨hk, ha, hb⟩
    exact ⟨k, hk, rfl, ha.symm, hb.symm⟩

/-! ### ENCODE's word -/

/-- The fields do not overlap, so ENCODE's word is their weighted sum (R83, R111). -/
theorem encodeWord_toNat {m : OpcMap} {k : OpKind} {a b w : Word} (h : encodeWord m k a b = some w) :
    w.toNat = (m.code k).toNat * 2 ^ 26 + a.toNat * 2 ^ 22 + b.toNat := by
  obtain ⟨ha, hb⟩ := fits_of_encodeWord h
  have hc := (m.code k).isLt
  have hw : w = ((m.code k).setWidth 32 <<< 26) ||| (a <<< 22) ||| b := by
    rcases encodeWord_cases m k a b with ⟨_, _, he⟩ | ⟨_, hn⟩
    · exact Option.some.inj (h.symm.trans he)
    · simp [hn] at h
  have hcode : ((m.code k).setWidth 32 <<< 26).toNat = 2 ^ 26 * (m.code k).toNat := by
    simp only [BitVec.toNat_shiftLeft, BitVec.toNat_setWidth, Nat.shiftLeft_eq]
    omega
  have hparam : (a <<< 22).toNat = 2 ^ 22 * a.toNat := by
    simp only [BitVec.toNat_shiftLeft, Nat.shiftLeft_eq]
    omega
  rw [hw, BitVec.toNat_or, BitVec.toNat_or, hcode, hparam, Nat.lor_assoc,
    ← Nat.two_pow_add_eq_or_of_lt (b := b.toNat) hb,
    ← Nat.two_pow_add_eq_or_of_lt (by omega)]
  omega

/-- The fields of ENCODE's word are the code and the two parameters (R111). -/
theorem fields_of_encodeWord {m : OpcMap} {k : OpKind} {a b w : Word} (h : encodeWord m k a b = some w) :
    opCodeOf w = m.code k ∧ paramAOf w = a.setWidth 4 ∧ paramBOf w = b.setWidth 22 := by
  obtain ⟨ha, hb⟩ := fits_of_encodeWord h
  have hw := encodeWord_toNat h
  refine ⟨BitVec.eq_of_toNat_eq ?_, BitVec.eq_of_toNat_eq ?_, BitVec.eq_of_toNat_eq ?_⟩
  · rw [opCodeOf_toNat]
    omega
  · rw [paramAOf_toNat, BitVec.toNat_setWidth]
    omega
  · rw [paramBOf_toNat, BitVec.toNat_setWidth]
    omega

theorem decodeCmd_of_encodeWord {m : OpcMap} (hm : m.Injective) {k : OpKind} {a b w : Word}
    (h : encodeWord m k a b = some w) : decodeCmd m w = some (k, a.setWidth 4, b.setWidth 22) := by
  obtain ⟨hcode, ha, hb⟩ := fields_of_encodeWord h
  exact (decodeCmd_eq_some_iff hm w k _ _).mpr ⟨hcode.symm, ha.symm, hb.symm⟩

/-- Settles O2: the three clauses are the two answers of DecodeCmd, read as arithmetic of the fields, and DecodeCmd of
ENCODE's word. -/
theorem decodeCmdIsInverseWiring : Obligations.DecodeCmdIsInverseWiring := by
  intro m hm
  refine ⟨fun w k a b => ?_, fun w => ?_, fun k a b w h => ⟨decodeCmd_of_encodeWord hm h, fits_of_encodeWord h⟩⟩
  · rw [decodeCmd_eq_some_iff hm, ← opCodeOf_toNat, ← paramAOf_toNat, ← paramBOf_toNat]
    simp only [BitVec.toNat_inj]
  · rw [decodeCmd_eq_none_iff, ← opCodeOf_toNat]
    simp only [ne_eq, BitVec.toNat_inj]

/-! ### Decoding what was encoded -/

/-- A parameter that fits ParamA comes back from its field whole. -/
theorem setWidth_paramA {a : Word} (h : fitsParamA a = true) : (a.setWidth 4).setWidth 32 = a := by
  have ha : a.toNat < 2 ^ 4 := by simpa [fitsParamA] using h
  exact BitVec.eq_of_toNat_eq (by simp only [BitVec.toNat_setWidth]; omega)

/-- A parameter that fits ParamB comes back from its field whole. -/
theorem setWidth_paramB {b : Word} (h : fitsParamB b = true) : (b.setWidth 22).setWidth 32 = b := by
  have hb : b.toNat < 2 ^ 22 := by simpa [fitsParamB] using h
  exact BitVec.eq_of_toNat_eq (by simp only [BitVec.toNat_setWidth]; omega)

/-- A command whose parameters fit has a word, and the word decodes to what the kind makes of the two fields. -/
theorem decode_of_encodeWord {m : OpcMap} (hm : m.Injective) {k : OpKind} {a b : Word} {i : Instr}
    (ha : fitsParamA a = true) (hb : fitsParamB b = true)
    (hi : commandOfFields k (a.setWidth 4) (b.setWidth 22) = .operation i) :
    ∃ r, (encodeWord m k a b).map .command = some r ∧ decode m r = .operation i := by
  have hsome : (encodeWord m k a b).isSome = true := by simp [Laws.encodeWord_isSome, ha, hb]
  obtain ⟨w, hw⟩ := Option.isSome_iff_exists.mp hsome
  refine ⟨.command w, by rw [hw]; rfl, ?_⟩
  rw [decode, decodeCommand, decodeCmd_of_encodeWord hm hw, ← hi]

/-- A request at DCE, presented by the code of its kind, decodes to the kind. -/
theorem decode_dce {m : OpcMap} (hm : m.Injective) (k : OpKind) (a b : Word) :
    decode m (.dce (m.code k) a b) = .operation (.encode k a b) := by
  rw [decode, (kindOfCode_eq_some_iff hm (m.code k) k).mpr rfl]

/-- Settles O1, by cases on the operation: a device command through ENCODE's word, ENCODE through OPC inverse, and the
other operations by the port or the `hop` of their request. -/
theorem decodeOfEncodeIsTheOperation : Obligations.DecodeOfEncodeIsTheOperation := by
  intro m i hm hwf
  have zeroA : fitsParamA 0 = true := by decide
  have zeroB : fitsParamB 0 = true := by decide
  cases i with
  | cmdMount => exact decode_of_encodeWord hm zeroA zeroB rfl
  | cmdUnmount => exact decode_of_encodeWord hm zeroA zeroB rfl
  | cmdSeekDrum d => exact decode_of_encodeWord hm hwf zeroB (by simp [commandOfFields, setWidth_paramA hwf])
  | cmdSeekBlock b => exact decode_of_encodeWord hm zeroA hwf (by simp [commandOfFields, setWidth_paramB hwf])
  | cmdFormatDrum d b | cmdDiskRead d b | cmdDiskWrite d b =>
    obtain ⟨hd, hb⟩ := Bool.and_eq_true_iff.mp hwf
    exact decode_of_encodeWord hm hd hb (by rw [commandOfFields, setWidth_paramA hd, setWidth_paramB hb])
  | hostMount | hostUnmount | hostRead | hostWrite | drumOf | blockOf | offsetOf | decompose => exact ⟨_, rfl, rfl⟩
  | encode k a b => exact ⟨_, rfl, decode_dce hm k a b⟩

/-! ### The spec's own words -/

/-- Settles O5: the words and the OPC are fixed, so each clause is one run of the decoder. -/
theorem specWordsDecode : Obligations.SpecWordsDecode := by
  unfold Obligations.SpecWordsDecode
  decide

end Sys2Proof.Machine
end

section
/-! PROOF. O3, O4 and O10 to O14: ENCODE and the seven device commands (40_command_encoder.md). ENCODE's word is the
three fields side by side; a device command is one exchange of that word, or the fault EncodeOverflow. -/

namespace Sys2Proof.Machine

/-! ### The word made of its fields -/

/-- A word is its three fields side by side (30_encoding.md R83). -/
theorem fieldsWord_of_fields (w : Word) : fieldsWord (opCodeOf w) (paramAOf w) (paramBOf w) = w := by
  have hhigh : opCodeOf w ++ paramAOf w = w.extractLsb' 22 10 :=
    BitVec.extractLsb'_append_extractLsb'_eq_extractLsb' rfl
  have hall : w.extractLsb' 22 10 ++ paramBOf w = w.extractLsb' 0 32 :=
    BitVec.extractLsb'_append_extractLsb'_eq_extractLsb' rfl
  rw [fieldsWord, hhigh, hall, BitVec.extractLsb'_eq_self]

/-- Where ENCODE is defined, its word is the code and the two parameters side by side (R111). -/
theorem eq_fieldsWord_of_encodeWord {m : OpcMap} {k : OpKind} {a b w : Word} (h : encodeWord m k a b = some w) :
    w = fieldsWord (m.code k) (a.setWidth 4) (b.setWidth 22) := by
  obtain ⟨hcode, ha, hb⟩ := fields_of_encodeWord h
  rw [← hcode, ← ha, ← hb, fieldsWord_of_fields]

theorem encodeWord_of_fits (m : OpcMap) (k : OpKind) {a b : Word} (ha : a.toNat < 16) (hb : b.toNat < 2 ^ 22) :
    encodeWord m k a b = some (fieldsWord (m.code k) (a.setWidth 4) (b.setWidth 22)) := by
  rcases encodeWord_cases m k a b with ⟨_, _, hsome⟩ | ⟨hover, _⟩
  · exact hsome.trans (congrArg some (eq_fieldsWord_of_encodeWord hsome))
  · exact absurd ⟨ha, hb⟩ hover

theorem encodeWord_of_not_fits (m : OpcMap) (k : OpKind) {a b : Word} (h : ¬(a.toNat < 16 ∧ b.toNat < 2 ^ 22)) :
    encodeWord m k a b = none := by
  rcases encodeWord_cases m k a b with ⟨ha, hb, _⟩ | ⟨_, hnone⟩
  · exact absurd ⟨ha, hb⟩ h
  · exact hnone

/-- Any code and any two fields are the word of an ENCODE: the fields, zero-extended, fit. -/
theorem encodeWord_of_fields (m : OpcMap) (k : OpKind) (a : BitVec 4) (b : BitVec 22) :
    encodeWord m k (a.setWidth 32) (b.setWidth 32) = some (fieldsWord (m.code k) a b) := by
  have ha : (a.setWidth 32).toNat = a.toNat := BitVec.toNat_setWidth_of_le (by decide)
  have hb : (b.setWidth 32).toNat = b.toNat := BitVec.toNat_setWidth_of_le (by decide)
  rw [encodeWord_of_fits m k (ha ▸ a.isLt) (hb ▸ b.isLt)]
  simp

/-! ### ENCODE -/

/-- Settles O3: the word is the weighted sum of its three fields, and the parameters fit theirs. -/
theorem encodeFieldsReadBack : Obligations.EncodeFieldsReadBack := by
  intro m k a b w h
  obtain ⟨ha, hb⟩ := fits_of_encodeWord h
  have hw := encodeWord_toNat h
  refine ⟨?_, ?_, ?_⟩ <;> omega

/-- Settles O4: the fields read back determine the inputs, and a word whose OpCode is the code of a kind is ENCODE of its
own fields. -/
theorem encodeInjectiveWithExactImage : Obligations.EncodeInjectiveWithExactImage := by
  intro m hm
  refine ⟨fun k k' a a' b b' w h h' => ?_, fun w => ⟨?_, ?_⟩⟩
  · obtain ⟨hcode, ha, hb⟩ := encodeFieldsReadBack m k a b w h
    obtain ⟨hcode', ha', hb'⟩ := encodeFieldsReadBack m k' a' b' w h'
    exact ⟨code_inj hm (BitVec.eq_of_toNat_eq (hcode.symm.trans hcode')),
      BitVec.eq_of_toNat_eq (ha.symm.trans ha'), BitVec.eq_of_toNat_eq (hb.symm.trans hb')⟩
  · rintro ⟨k, a, b, h⟩
    obtain ⟨hcode, _⟩ := encodeFieldsReadBack m k a b w h
    exact ⟨k, hcode.symm⟩
  · rintro ⟨k, hk⟩
    have hcode : m.code k = opCodeOf w := BitVec.eq_of_toNat_eq (hk.trans (opCodeOf_toNat w).symm)
    exact ⟨k, _, _, by rw [encodeWord_of_fields m k (paramAOf w) (paramBOf w), hcode, fieldsWord_of_fields]⟩

/-- The fault EncodeOverflow writes `fault` and `phase` and nothing else (60_exceptions.md R229). -/
theorem enterFault_eq_overflowed (s : State) : enterFault s = overflowed s := rfl

theorem execEncode_of_some {k : OpKind} {a b w : Word} {s : State} (h : encodeWord s.cfg.opc k a b = some w) :
    execEncode k a b s = .next { s with dceWord := w } := by
  simp [execEncode, h]

theorem execEncode_of_none {k : OpKind} {a b : Word} {s : State} (h : encodeWord s.cfg.opc k a b = none) :
    execEncode k a b s = .next (overflowed s) := by
  simp [execEncode, h, enterFault_eq_overflowed]

/-- Settles O10: ENCODE answers what its word, or the lack of one, asks for. -/
theorem encodePacksOrFaults : Obligations.EncodePacksOrFaults := by
  intro k a b s
  exact ⟨fun ⟨ha, hb⟩ => execEncode_of_some (encodeWord_of_fits _ k ha hb),
    fun hover => execEncode_of_none (encodeWord_of_not_fits _ k hover)⟩

/-! ### Device commands -/

/-- A command whose parameters fit is one Submit of its fields, with the buffer of its kind, and then what follows it. -/
theorem issueThen_of_fits (s : State) (k : OpKind) {a b : Word} (after : State → State) (ha : a.toNat < 16)
    (hb : b.toNat < 2 ^ 22) :
    issueThen k a b s after =
      after (submit (fieldsWord (s.cfg.opc.code k) (a.setWidth 4) (b.setWidth 22)) (bufferArg k s) s) := by
  simp [issueThen, encodeWord_of_fits s.cfg.opc k ha hb]

/-- A command with a parameter that does not fit takes the fault, and what was to follow it does not (R113). -/
theorem issueThen_of_not_fits (s : State) (k : OpKind) {a b : Word} (after : State → State)
    (h : ¬(a.toNat < 16 ∧ b.toNat < 2 ^ 22)) : issueThen k a b s after = overflowed s := by
  simp [issueThen, encodeWord_of_not_fits s.cfg.opc k h, enterFault_eq_overflowed]

/-- In a block that has not faulted, a device command is its ENCODE and Submit with nothing after it (R114 to R120). -/
theorem deviceCommand_of_running {s : State} (hs : Running s) (k : OpKind) (a b : Word) :
    deviceCommand k a b s = .next (issueThen k a b s id) := by
  have hrun : isHalted s = false := (not_halted_iff s).2 hs.symm
  simp [deviceCommand, hrun]

/-- A Submit with no buffer is one exchange that leaves BB as it was (R200, R202). -/
theorem submit_without_buffer (w : Word) (s : State) : submit w none s = exchanged w s := rfl

/-- A Submit with BB is one exchange after which BB is what the device left of it (R200, R202). -/
theorem submit_with_buffer (w : Word) (s : State) : submit w (some s.bb) s = exchangedBuffer w s := rfl

/-- A device command that no buffer accompanies. -/
theorem deviceCommand_exchanged {s : State} (hs : Running s) {k : OpKind} (hk : bufferArg k s = none) {a b : Word}
    (ha : a.toNat < 16) (hb : b.toNat < 2 ^ 22) :
    deviceCommand k a b s =
      .next (exchanged (fieldsWord (s.cfg.opc.code k) (a.setWidth 4) (b.setWidth 22)) s) := by
  rw [deviceCommand_of_running hs, issueThen_of_fits s k id ha hb, hk, id, submit_without_buffer]

/-- A device command that BB accompanies. -/
theorem deviceCommand_exchangedBuffer {s : State} (hs : Running s) {k : OpKind} (hk : bufferArg k s = some s.bb)
    {a b : Word} (ha : a.toNat < 16) (hb : b.toNat < 2 ^ 22) :
    deviceCommand k a b s =
      .next (exchangedBuffer (fieldsWord (s.cfg.opc.code k) (a.setWidth 4) (b.setWidth 22)) s) := by
  rw [deviceCommand_of_running hs, issueThen_of_fits s k id ha hb, hk, id, submit_with_buffer]

theorem deviceCommand_overflowed {s : State} (hs : Running s) (k : OpKind) {a b : Word}
    (h : ¬(a.toNat < 16 ∧ b.toNat < 2 ^ 22)) : deviceCommand k a b s = .next (overflowed s) := by
  rw [deviceCommand_of_running hs, issueThen_of_not_fits s k id h]

/-- Settles O11: each of the five commands is a device command with no buffer; an unused parameter is 0, which fits. -/
theorem commandsWithoutBufferComplete : Obligations.CommandsWithoutBufferComplete := by
  intro s d b hs
  have zeroA : (0 : Word).toNat < 16 := by decide
  have zeroB : (0 : Word).toNat < 2 ^ 22 := by decide
  exact ⟨deviceCommand_exchanged hs (k := .mount) rfl zeroA zeroB,
    deviceCommand_exchanged hs (k := .unmount) rfl zeroA zeroB,
    fun hd hb => deviceCommand_exchanged hs (k := .formatDrum) rfl hd hb,
    fun hd => deviceCommand_exchanged hs (k := .seekDrum) rfl hd zeroB,
    fun hb => deviceCommand_exchanged hs (k := .seekBlock) rfl zeroA hb⟩

/-- Settles O12: BB accompanies DiskRead (R119). -/
theorem diskReadFillsTheBuffer : Obligations.DiskReadFillsTheBuffer := by
  intro s d b hs hd hb
  exact deviceCommand_exchangedBuffer hs (k := .diskRead) rfl hd hb

/-- Settles O13: BB accompanies DiskWrite (R120). -/
theorem diskWriteHandsOverTheBuffer : Obligations.DiskWriteHandsOverTheBuffer := by
  intro s d b hs hd hb
  exact deviceCommand_exchangedBuffer hs (k := .diskWrite) rfl hd hb

/-- Settles O14: whichever parameter is too wide, the command has no word. -/
theorem commandOverflowTakesTheFault : Obligations.CommandOverflowTakesTheFault := by
  intro s d b hs
  refine ⟨fun hover => ?_, fun hd => ?_, fun hb => ?_⟩
  · have hnot : ¬(d.toNat < 16 ∧ b.toNat < 2 ^ 22) := by omega
    exact ⟨deviceCommand_overflowed hs .formatDrum hnot, deviceCommand_overflowed hs .diskRead hnot,
      deviceCommand_overflowed hs .diskWrite hnot⟩
  · exact deviceCommand_overflowed hs .seekDrum fun ⟨hfit, _⟩ => absurd hfit hd.not_gt
  · exact deviceCommand_overflowed hs .seekBlock fun ⟨_, hfit⟩ => absurd hfit hb.not_gt

end Sys2Proof.Machine
end

section
/-! PROOF. O6 to O9: the Address Decomposer (41_address_decomposer.md). Its fields are quotients and remainders of the
address, so each statement is arithmetic of them. -/

namespace Sys2Proof.Machine

/-! ### The fields of an address -/

theorem offsetOf_toNat (address : Word) : (offsetOf address).toNat = address.toNat % 2 ^ 8 := by
  have hmask : address.toNat &&& 0xFF = address.toNat % 2 ^ 8 := Nat.and_two_pow_sub_one_eq_mod _ 8
  have hbyte : (offsetOf address).toNat = (address.toNat &&& 0xFF) % 2 ^ 8 := by
    rw [offsetOf, BitVec.toNat_setWidth, BitVec.toNat_and]
    rfl
  rw [hbyte, hmask, Nat.mod_mod]

/-- Settles O6: each function is its shift and mask, read as a quotient and a remainder. -/
theorem addressFieldsAreTheBits : Obligations.AddressFieldsAreTheBits :=
  fun address => ⟨drumOf_toNat address, blockOf_toNat address, offsetOf_toNat address⟩

/-! ### The address from its fields -/

/-- No bit of the address is outside the three fields (41_address_decomposer.md R134). -/
theorem weighted_fields_eq_toNat (address : Word) :
    (drumOf address).toNat * 2 ^ 16 + (blockOf address).toNat * 2 ^ 8 + (offsetOf address).toNat = address.toNat := by
  rw [drumOf_toNat, blockOf_toNat, offsetOf_toNat]
  omega

/-- The three fields do not overlap: an address made of a triple has the triple's values as its fields (R134). -/
theorem fields_of_toNat_eq {d : BitVec 16} {b o : BitVec 8} {address : Word}
    (h : address.toNat = d.toNat * 2 ^ 16 + b.toNat * 2 ^ 8 + o.toNat) :
    drumOf address = d ∧ blockOf address = b ∧ offsetOf address = o := by
  have hb := b.isLt
  have ho := o.isLt
  refine ⟨BitVec.eq_of_toNat_eq ?drum, BitVec.eq_of_toNat_eq ?block, BitVec.eq_of_toNat_eq ?offset⟩
  case drum => rw [drumOf_toNat]; omega
  case block => rw [blockOf_toNat]; omega
  case offset => rw [offsetOf_toNat]; omega

/-- Settles O7: a triple's address has the triple as its fields, and an address is that of its own fields. -/
theorem decomposeIsABijection : Obligations.DecomposeIsABijection :=
  ⟨fun _ => rfl, weighted_fields_eq_toNat, fun _ _ _ _ => fields_of_toNat_eq⟩

/-! ### The output lines -/

/-- Settles O8: the meanings ask nothing of the state, and the lines they write carry the fields of O6. -/
theorem addressFunctionsDriveTheirLines : Obligations.AddressFunctionsDriveTheirLines := by
  intro address s
  obtain ⟨hdrum, hblock, hoffset⟩ := addressFieldsAreTheBits address
  exact ⟨drumOf address, blockOf address, offsetOf address, hdrum, hblock, hoffset, rfl, rfl, rfl, rfl⟩

/-! ### One field step further on (R137)

A field that is not at its maximum keeps the sum below 2^32, and the step carries into no higher field. -/

theorem drumOf_add_step {a : Word} (h : (drumOf a).toNat < 0xFFFF) :
    (drumOf (a + 0x10000)).toNat = (drumOf a).toNat + 1 := by
  rw [drumOf_toNat] at h
  have hsum : (a + 0x10000).toNat = a.toNat + 2 ^ 16 :=
    BitVec.toNat_add_of_lt (show a.toNat + 2 ^ 16 < 2 ^ 32 by omega)
  rw [drumOf_toNat, drumOf_toNat, hsum]
  omega

theorem blockOf_add_step {a : Word} (h : (blockOf a).toNat < 0xFF) :
    (blockOf (a + 0x100)).toNat = (blockOf a).toNat + 1 := by
  rw [blockOf_toNat] at h
  have ha := a.isLt
  have hsum : (a + 0x100).toNat = a.toNat + 2 ^ 8 :=
    BitVec.toNat_add_of_lt (show a.toNat + 2 ^ 8 < 2 ^ 32 by omega)
  rw [blockOf_toNat, blockOf_toNat, hsum]
  omega

theorem offsetOf_add_step {a : Word} (h : (offsetOf a).toNat < 0xFF) :
    (offsetOf (a + 1)).toNat = (offsetOf a).toNat + 1 := by
  rw [offsetOf_toNat] at h
  have ha := a.isLt
  have hsum : (a + 1).toNat = a.toNat + 1 :=
    BitVec.toNat_add_of_lt (show a.toNat + 1 < 2 ^ 32 by omega)
  rw [offsetOf_toNat, offsetOf_toNat, hsum]
  omega

/-- Settles O9, field by field. -/
theorem decomposerFieldsStepByOne : Obligations.DecomposerFieldsStepByOne :=
  fun _ => ⟨drumOf_add_step, blockOf_add_step, offsetOf_add_step⟩

end Sys2Proof.Machine
end

section
/-! PROOF. O16 to O18: the Volume Lifecycle Manager (42_volume_lifecycle.md). Its phases issue commands that no buffer
accompanies, with both parameters zero: each is one exchange, whose status is that of the first coming answer. -/

namespace Sys2Proof.Machine

/-! ### An exchange with a coming answer -/

/-- The state after one exchange of a command that no buffer accompanies, answered with `d`, when the answers in `rest`
are still to come. -/
def answered (w : Word) (d : Answer) (rest : List Answer) (s : State) : State :=
  { s with answers := rest, trace := s.trace ++ [⟨w, none, d.status, none⟩] }

theorem nextAnswer_of_answers {s : State} {d : Answer} {rest : List Answer} (h : s.answers = d :: rest) (w : Word)
    (m : Option Memory) : nextAnswer w m s = d := by
  simp [nextAnswer, h]

/-- A Submit with no buffer uses up the first coming answer and records its status (R200, R207). -/
theorem submit_of_answers {s : State} {d : Answer} {rest : List Answer} (h : s.answers = d :: rest) (w : Word) :
    submit w none s = answered w d rest s := by
  simp [submit_without_buffer, exchanged, answered, nextAnswer_of_answers h, h]

/-- The command is reported as failed iff the coming status is negative (44_device_primitive.md R203). -/
theorem submitFailed_iff_of_answers {s : State} {d : Answer} {rest : List Answer} (h : s.answers = d :: rest) (w : Word)
    (m : Option Memory) : submitFailed w m s = true ↔ d.status.toInt < 0 := by
  rw [submitFailed, nextAnswer_of_answers h, statusFailed_iff]

/-! ### Commands with both parameters zero -/

/-- ENCODE of two zero parameters is the code above zero fields, and never overflows (R87, R111). -/
theorem encodeWord_zero (m : OpcMap) (k : OpKind) : encodeWord m k 0 0 = some (fieldsWord (m.code k) 0 0) :=
  encodeWord_of_fields m k 0 0

/-- A command with zero parameters and no buffer is one exchange; the sign of its status selects what follows. -/
theorem issue_zero {s : State} {k : OpKind} (hk : bufferArg k s = none) {d : Answer} {rest : List Answer}
    (h : s.answers = d :: rest) (good bad : State → State) :
    issue k 0 0 s good bad =
      if d.status.toInt < 0 then bad (answered (fieldsWord (s.cfg.opc.code k) 0 0) d rest s)
      else good (answered (fieldsWord (s.cfg.opc.code k) 0 0) d rest s) := by
  simp only [issue, encodeWord_zero, hk, submit_of_answers h, submitFailed_iff_of_answers h]

/-- With the status discarded, it is one exchange and then what follows. -/
theorem issueThen_zero {s : State} {k : OpKind} (hk : bufferArg k s = none) {d : Answer} {rest : List Answer}
    (h : s.answers = d :: rest) (after : State → State) :
    issueThen k 0 0 s after = after (answered (fieldsWord (s.cfg.opc.code k) 0 0) d rest s) := by
  simp only [issueThen, encodeWord_zero, hk, submit_of_answers h]

/-! ### The phases of MOUNT and UNMOUNT -/

section
variable {s : State} {d : Answer} {rest : List Answer}

/-- Phase M_MOUNT (R141, R142): Mount, then the end of MOUNT or the format step. -/
theorem step_mMount (hp : s.phase = .mMount) (hf : s.fault = false) (h : s.answers = d :: rest) :
    step s = .next (if d.status.toInt < 0
      then endOperation .mountFailure (answered (fieldsWord s.cfg.opc.mount 0 0) d rest s)
      else goto .mFormat (answered (fieldsWord s.cfg.opc.mount 0 0) d rest s)) := by
  rw [step_of_running ⟨by simp [hp], hf⟩]
  simp only [phaseStep, hp, stepMMount, issue_zero (k := .mount) rfl h, OpcMap.code]

/-- Phase M_FORMAT (R143): FormatDrum(0, 0) and the end of MOUNT, whatever the status. -/
theorem step_mFormat (hp : s.phase = .mFormat) (hf : s.fault = false) (h : s.answers = d :: rest) :
    step s = .next (endOperation .ok (answered (fieldsWord s.cfg.opc.formatDrum 0 0) d rest s)) := by
  rw [step_of_running ⟨by simp [hp], hf⟩]
  simp only [phaseStep, hp, stepMFormat, issueThen_zero (k := .formatDrum) rfl h, OpcMap.code]

/-- Phase U_UNMOUNT (R144): Unmount and the end of UNMOUNT in both outcomes; the status selects the result only. -/
theorem step_uUnmount (hp : s.phase = .uUnmount) (hf : s.fault = false) (h : s.answers = d :: rest) :
    step s = .next (endOperation (if d.status.toInt < 0 then .unmountFailure else .ok)
      (answered (fieldsWord s.cfg.opc.unmount 0 0) d rest s)) := by
  rw [step_of_running ⟨by simp [hp], hf⟩]
  simp only [phaseStep, hp, stepUUnmount, issue_zero (k := .unmount) rfl h, OpcMap.code]
  split <;> rfl

end

/-! ### The two operations -/

/-- An idle block that has not faulted accepts a request (43_io_sequencer.md R155). -/
theorem acceptRequest_of_ready {s : State} (h : Ready s) (start : State → State) :
    acceptRequest s start = .next (start s) := by
  obtain ⟨hp, hf⟩ := h
  simp [acceptRequest, isHalted, hp, hf]

theorem exec_hostMount_of_ready {s : State} (h : Ready s) :
    exec .hostMount s = .next { s with op := .mount, phase := .mMount } :=
  acceptRequest_of_ready h fun s => { s with op := .mount, phase := .mMount }

theorem exec_hostUnmount_of_ready {s : State} (h : Ready s) :
    exec .hostUnmount s = .next { s with op := .unmount, phase := .uUnmount } :=
  acceptRequest_of_ready h fun s => { s with op := .unmount, phase := .uUnmount }

/-- Settles O16: both start steps are requests accepted in IDLE. -/
theorem lifecycleStartSteps : Obligations.LifecycleStartSteps := by
  intro s hready
  exact ⟨exec_hostMount_of_ready hready, exec_hostUnmount_of_ready hready⟩

/-- Settles O17: the first coming status decides between the end of MOUNT and the format step, which takes the second
coming answer and does not look at its status. -/
theorem mountIssuesMountThenFormat : Obligations.MountIssuesMountThenFormat := by
  intro s a1 a2 rest hready hans
  have hf : s.fault = false := hready.2
  have hmounted := step_mMount (s := { s with op := .mount, phase := .mMount }) rfl hf hans
  refine ⟨_, exec_hostMount_of_ready hready, rfl, fun hneg => ?_, fun hnonneg => ?_⟩
  · rw [if_pos hneg] at hmounted
    exact hmounted
  · rw [if_neg hnonneg.not_gt] at hmounted
    refine ⟨_, hmounted, rfl, Eq.trans (step_mFormat rfl hf rfl) ?_⟩
    simp [goto, endOperation, answered]

/-- Settles O18: the one exchange of UNMOUNT ends it, and the sign of its status is its result. -/
theorem unmountReportsTheStatus : Obligations.UnmountReportsTheStatus := by
  intro s a rest hready hans
  have hf : s.fault = false := hready.2
  exact ⟨_, exec_hostUnmount_of_ready hready, rfl, step_uUnmount rfl hf hans⟩

end Sys2Proof.Machine
end

section
/-! PROOF. O19 to O30: the start step of READ and WRITE, and one step of each phase of the sequencer
(43_io_sequencer.md). A command of the loop is one exchange and the next phase, or the fault EncodeOverflow. -/

namespace Sys2Proof.Machine

/-! ### The start step -/

/-- An idle block accepts a transfer exactly as far as the caller's buffer allows (R154, R155). -/
theorem acceptTransfer_of_ready {s : State} (h : Ready s) (dir : HostOp) (address length : Word) :
    acceptTransfer dir address length s =
      if length.toNat ≤ s.hbCapacity then .next (startTransfer dir address length s) else .refused .bufferTooShort := by
  obtain ⟨hp, hf⟩ := h
  simp [acceptTransfer, isHalted, hp, hf]

/-- A WRITE the block accepts answers its start step (R155). -/
theorem exec_hostWrite_of_ready {s : State} (h : Ready s) {address length : Word}
    (hcap : length.toNat ≤ s.hbCapacity) :
    exec (.hostWrite address length) s = .next (startTransfer .write address length s) :=
  (acceptTransfer_of_ready h .write address length).trans (if_pos hcap)

/-- The registers R155 loads, as quotients and remainders of the address. -/
theorem startTransfer_eq (dir : HostOp) (address length : Word) (s : State) :
    startTransfer dir address length s =
      { s with
        op := dir, drum := BitVec.ofNat 17 (address.toNat / 2 ^ 16),
        block := BitVec.ofNat 22 (address.toNat / 2 ^ 8 % 2 ^ 8), byteOffset := BitVec.ofNat 8 (address.toNat % 2 ^ 8),
        firstBlock := BitVec.ofNat 8 (address.toNat / 2 ^ 8 % 2 ^ 8), first := true, transferred := 0,
        length := length, phase := .lTest, bb := [] } := by
  rw [← drumOf_toNat, ← blockOf_toNat, ← offsetOf_toNat, BitVec.ofNat_toNat, BitVec.ofNat_toNat, BitVec.ofNat_toNat,
    BitVec.ofNat_toNat, BitVec.setWidth_eq, BitVec.setWidth_eq]
  rfl

/-- A transfer is accepted only in a block that is idle and has not faulted (R155). -/
theorem ready_of_acceptTransfer {dir : HostOp} {address length : Word} {s t : State}
    (h : acceptTransfer dir address length s = .next t) : Ready s := by
  obtain ⟨hh, hp, _, _⟩ := acceptTransfer_cases h
  exact ⟨hp, ((not_halted_iff s).1 hh).1⟩

/-- Settles O19: the accepted start step, its operands read as arithmetic; a block that is not idle accepts nothing. -/
theorem transferStartStep : Obligations.TransferStartStep := by
  intro s address length
  refine ⟨fun hready hcap => ⟨⟨_, exec_hostRead_of_ready hready hcap, startTransfer_eq _ _ _ _⟩,
    ⟨_, exec_hostWrite_of_ready hready hcap, startTransfer_eq _ _ _ _⟩⟩, ?_⟩
  rintro t (h | h) <;> exact ready_of_acceptTransfer h

/-- Settles O20: each host operation asks for IDLE after it has asked whether the block has halted. -/
theorem requestOutsideIdleNotAccepted : Obligations.RequestOutsideIdleNotAccepted := by
  intro s a n hrun hp
  have hh : isHalted s = false := (not_halted_iff s).2 hrun.symm
  have hrequest (start : State → State) : acceptRequest s start = .refused .notAccepted := by
    simp [acceptRequest, hh, hp]
  have htransfer (dir : HostOp) : acceptTransfer dir a n s = .refused .notAccepted := by
    simp [acceptTransfer, hh, hp]
  exact ⟨hrequest fun s => { s with op := .mount, phase := .mMount },
    hrequest fun s => { s with op := .unmount, phase := .uUnmount }, htransfer .read, htransfer .write⟩

/-- Settles O21: the capacity is the last thing an idle block asks for. -/
theorem shortBufferRefused : Obligations.ShortBufferRefused := by
  intro s a n hready hshort
  have htransfer (dir : HostOp) : acceptTransfer dir a n s = .refused .bufferTooShort :=
    (acceptTransfer_of_ready hready dir a n).trans (if_neg hshort.not_ge)
  exact ⟨htransfer .read, htransfer .write⟩

/-! ### The step of each phase -/

/-- In a block that has not faulted a step is the step of the phase it is in (R33). -/
theorem step_of_phase {s : State} {p : Phase} (hp : s.phase = p) (hf : s.fault = false)
    (hne : p ≠ .fault := by decide) : step s = phaseStep s :=
  step_of_running ⟨hp ▸ hne, hf⟩

section
variable {s : State} (hf : s.fault = false)
include hf

theorem step_lTest (hp : s.phase = .lTest) : step s = .next (stepLTest s) := by
  simp only [step_of_phase hp hf, phaseStep, hp]

theorem step_validate (hp : s.phase = .validate) : step s = .next (stepValidate s) := by
  simp only [step_of_phase hp hf, phaseStep, hp]

theorem step_first (hp : s.phase = .first) : step s = .next (stepFirst s) := by
  simp only [step_of_phase hp hf, phaseStep, hp]

theorem step_seekDrum (hp : s.phase = .seekDrum) : step s = .next (stepSeekDrum s) := by
  simp only [step_of_phase hp hf, phaseStep, hp]

theorem step_seekBlock (hp : s.phase = .seekBlock) : step s = .next (stepSeekBlock s) := by
  simp only [step_of_phase hp hf, phaseStep, hp]

theorem step_roll (hp : s.phase = .roll) : step s = .next (stepRoll s) := by
  simp only [step_of_phase hp hf, phaseStep, hp]

theorem step_dread (hp : s.phase = .dread) : step s = .next (stepDread s) := by
  simp only [step_of_phase hp hf, phaseStep, hp]

theorem step_inc (hp : s.phase = .inc) : step s = .next (stepInc s) := by
  simp only [step_of_phase hp hf, phaseStep, hp]

theorem step_copy (hp : s.phase = .copy) : step s = stepCopy s := by
  simp only [step_of_phase hp hf, phaseStep, hp]

theorem step_wbSeek (hp : s.phase = .wbSeek) : step s = .next (stepWbSeek s) := by
  simp only [step_of_phase hp hf, phaseStep, hp]

theorem step_wbWrite (hp : s.phase = .wbWrite) : step s = .next (stepWbWrite s) := by
  simp only [step_of_phase hp hf, phaseStep, hp]

theorem step_iterEnd (hp : s.phase = .iterEnd) : step s = .next (stepIterEnd s) := by
  simp only [step_of_phase hp hf, phaseStep, hp]

end

/-! ### The tests -/

/-- Settles O22. -/
theorem loopTestStep : Obligations.LoopTestStep := by
  intro s hp hf
  rw [step_lTest hf hp]
  refine ⟨fun hless => ?_, fun hdone => ?_⟩
  · rw [stepLTest, if_pos ((moreToMove_iff s).2 hless)]
    rfl
  · rw [stepLTest, if_neg (hdone ∘ (moreToMove_iff s).1)]
    rfl

/-- Settles O23: the two sides are IN_RANGE and its negation. -/
theorem rangeCheckStep : Obligations.RangeCheckStep := by
  intro s hp hf
  rw [step_validate hf hp]
  refine ⟨fun hin => ?_, fun hout => ?_⟩
  · simp [stepValidate, (inRange_iff s).2 hin, goto]
  · simp [stepValidate, (not_inRange_iff s).2 hout, endOperation]

/-- Settles O24: with FIRST_TEST = flag the test is the flag. -/
theorem firstTestStep : Obligations.FirstTestStep := by
  intro s hp hf hv
  obtain ⟨_, _, hflag⟩ := hv
  rw [step_first hf hp]
  refine ⟨fun hfirst => ?_, fun hfirst => ?_⟩ <;>
    simp [stepFirst, isFirstIteration_flag hflag, hfirst, goto, cursorAtOffset, cursorAtZero]

/-! ### The commands of the loop -/

/-- A command of the loop whose parameters fit is one exchange of its fields, whatever the status (R175). -/
theorem issueInLoop_of_fits {k : OpKind} {a b : Word} {p : Phase} {s : State} (hc : s.cfg.checkStatusInLoop = false)
    (ha : a.toNat < 16) (hb : b.toNat < 2 ^ 22) :
    issueInLoop k a b p s =
      goto p (submit (fieldsWord (s.cfg.opc.code k) (a.setWidth 4) (b.setWidth 22)) (bufferArg k s) s) := by
  simp [issueInLoop, hc, issueThen_of_fits s k (goto p) ha hb]

theorem drumParam_setWidth (s : State) : (drumParam s).setWidth 4 = s.drum.setWidth 4 :=
  BitVec.setWidth_setWidth_of_le _ (by decide)

theorem blockParam_setWidth (s : State) : (blockParam s).setWidth 22 = s.block := by
  rw [blockParam, BitVec.setWidth_setWidth_of_le _ (by decide), BitVec.setWidth_eq]

theorem previousBlockParam_setWidth (s : State) : (previousBlockParam s).setWidth 22 = s.block - 1 := by
  rw [previousBlockParam, BitVec.setWidth_setWidth_of_le _ (by decide), BitVec.setWidth_eq]

section
variable {s : State} {p : Phase} (hc : s.cfg.checkStatusInLoop = false)
include hc

/-- SeekDrum of the current drum, where it fits ParamA. -/
theorem issueInLoop_seekDrum (hd : s.drum.toNat < 16) :
    issueInLoop .seekDrum (drumParam s) 0 p s =
      goto p (exchanged (fieldsWord s.cfg.opc.seekDrum (s.drum.setWidth 4) 0) s) := by
  rw [issueInLoop_of_fits hc ((drumParam_toNat s).symm ▸ hd) (by decide), drumParam_setWidth]
  rfl

/-- SeekBlock of any target that came out of the 22-bit register. -/
theorem issueInLoop_seekBlock {b : Word} (hb : b.toNat < 2 ^ 22) :
    issueInLoop .seekBlock 0 b p s = goto p (exchanged (fieldsWord s.cfg.opc.seekBlock 0 (b.setWidth 22)) s) := by
  rw [issueInLoop_of_fits hc (by decide) hb]
  rfl

/-- DiskRead or DiskWrite of the current drum and block, where the drum fits ParamA. -/
theorem issueInLoop_exchangedBuffer {k : OpKind} (hk : bufferArg k s = some s.bb) (hd : s.drum.toNat < 16) :
    issueInLoop k (drumParam s) (blockParam s) p s =
      goto p (exchangedBuffer (fieldsWord (s.cfg.opc.code k) (s.drum.setWidth 4) s.block) s) := by
  rw [issueInLoop_of_fits hc ((drumParam_toNat s).symm ▸ hd) (blockParam_fits s), drumParam_setWidth,
    blockParam_setWidth, hk, submit_with_buffer]

/-- A drum that does not fit ParamA. -/
theorem issueInLoop_drumParam_overflow {k : OpKind} {b : Word} (hd : 16 ≤ s.drum.toNat) :
    issueInLoop k (drumParam s) b p s = overflowed s :=
  (issueInLoop_of_overflow hc ((drumParam_toNat s).symm ▸ hd)).trans (enterFault_eq_overflowed s)

end

/-- Settles O25: SeekDrum with the drum as ParamA, SeekBlock with a block that always fits. -/
theorem seekSteps : Obligations.SeekSteps := by
  intro s hf hv
  obtain ⟨_, hc, _⟩ := hv
  refine ⟨fun hp hd => ?_, fun hp hd => ?_, fun hp => ?_⟩
  · rw [step_seekDrum hf hp, stepSeekDrum, issueInLoop_seekDrum hc hd]
    rfl
  · rw [step_seekDrum hf hp, stepSeekDrum, issueInLoop_drumParam_overflow hc hd]
  · rw [step_seekBlock hf hp, stepSeekBlock, issueInLoop_seekBlock hc (blockParam_fits s), blockParam_setWidth]
    rfl

/-- The rollover in numbers (R166). -/
theorem rollOver_eq (s : State) :
    rollOver s = { s with block := 0, drum := BitVec.ofNat 17 (s.drum.toNat + 1) } := by
  have hdrum : s.drum + 1 = BitVec.ofNat 17 (s.drum.toNat + 1) := by
    rw [BitVec.ofNat_add, BitVec.ofNat_toNat, BitVec.setWidth_eq]
    rfl
  rw [rollOver, hdrum]

/-- Settles O26: below the threshold no command; at it, SeekDrum with the new drum as ParamA. -/
theorem rolloverStep : Obligations.RolloverStep := by
  intro s hp hf hv hdrum
  obtain ⟨hthreshold, hc, _⟩ := hv
  have hnew : (rollOver s).drum.toNat = s.drum.toNat + 1 :=
    BitVec.toNat_add_of_lt (show s.drum.toNat + 1 < 2 ^ 17 by omega)
  have hparam : (rollOver s).drum.setWidth 4 = BitVec.ofNat 4 (s.drum.toNat + 1) := by
    rw [← BitVec.ofNat_toNat, hnew]
  have hdue : rolloverDue s = true ↔ 256 ≤ s.block.toNat := by
    rw [rolloverDue_iff, hthreshold, blockSize]
  rw [step_roll hf hp, ← rollOver_eq]
  refine ⟨fun hb => ?_, fun hb hd => ?_, fun hb hd => ?_⟩
  · rw [stepRoll, if_neg (hb.not_ge ∘ hdue.1)]
    rfl
  · rw [stepRoll, if_pos (hdue.2 hb), issueInLoop_seekDrum (s := rollOver s) hc (hnew ▸ hd), hparam]
    rfl
  · rw [stepRoll, if_pos (hdue.2 hb), issueInLoop_drumParam_overflow (s := rollOver s) hc (hnew ▸ hd)]

/-- Settles O27: DiskRead with BB, then one more block. -/
theorem readAndIncrementSteps : Obligations.ReadAndIncrementSteps := by
  intro s hf hv
  obtain ⟨_, hc, _⟩ := hv
  refine ⟨fun hp hd => ?_, fun hp hd => ?_, fun hp _ => ?_⟩
  · rw [step_dread hf hp, stepDread, issueInLoop_exchangedBuffer hc rfl hd]
    rfl
  · rw [step_dread hf hp, stepDread, issueInLoop_drumParam_overflow hc hd]
  · rw [step_inc hf hp, BitVec.ofNat_add, BitVec.ofNat_toNat, BitVec.setWidth_eq]
    rfl

/-! ### The inner loop and the write-back -/

/-- Settles O28: bytes are left and the block has room, so COPY moves a byte, by the rule of the byte memory written. -/
theorem copyMovesOneByte : Obligations.CopyMovesOneByte := by
  intro s v hp hf hmore hroom
  have hcopy : step s = copyByte s := by
    rw [step_copy hf hp]
    simp [stepCopy, (moreToMove_iff s).2 hmore, (roomInBlock_iff s).2 hroom]
  rw [hcopy]
  refine ⟨fun hop hv => ?_, fun hop => ?_⟩
  · refine ⟨advance { s with hb := memWrite s.hb s.transferred.toNat v }, by simp [copyByte, hop, hv], rfl,
      memRead_memWrite_same _ _ _, fun i hi => memRead_memWrite_other _ _ hi⟩
  · exact ⟨advance { s with bb := memWrite s.bb s.cursor.toNat (hostByte s s.transferred.toNat) },
      by simp [copyByte, hop], rfl, memRead_memWrite_same _ _ _, fun i hi => memRead_memWrite_other _ _ hi⟩

/-- Settles O29: one of the two counters has reached its bound, so COPY leaves the inner loop. -/
theorem iterationEndSteps : Obligations.IterationEndSteps := by
  intro s hf
  refine ⟨fun hp hend => ?_, fun hp => ?_⟩
  · have hover : (moreToMove s && roomInBlock s) = false := by
      rwa [Bool.and_eq_false_iff, not_moreToMove_iff, not_roomInBlock_iff]
    have hleave : step s = .next (goto (afterCopy s.op) s) := by
      rw [step_copy hf hp]
      simp [stepCopy, hover]
    rw [hleave]
    refine ⟨fun hop => ?_, fun hop => ?_⟩ <;> simp [afterCopy, hop, goto]
  · rw [step_iterEnd hf hp]
    rfl

/-- Settles O30: SeekBlock one block back, then DiskWrite with the block register as it stands. -/
theorem writeBackSteps : Obligations.WriteBackSteps := by
  intro s hf hv
  obtain ⟨_, hc, _⟩ := hv
  refine ⟨fun hp hb => ?_, fun hp hd => ?_, fun hp hd => ?_⟩
  · have hprevious : s.block - 1 = BitVec.ofNat 22 (s.block.toNat - 1) := by bv_omega
    rw [step_wbSeek hf hp, stepWbSeek, issueInLoop_seekBlock hc (previousBlockParam_fits s), previousBlockParam_setWidth,
      hprevious]
    rfl
  · rw [step_wbWrite hf hp, stepWbWrite, issueInLoop_exchangedBuffer hc rfl hd]
    rfl
  · rw [step_wbWrite hf hp, stepWbWrite, issueInLoop_drumParam_overflow hc hd]

end Sys2Proof.Machine
end

section
/-! PROOF. O36, O40, O41 and O45: the successors of each phase, the two transfers that end at once, and the statuses the
loop does not look at (43_io_sequencer.md R190, R153, R161, R175). -/

namespace Sys2Proof.Machine

/-! ### The successors of each phase -/

/-- A command of the loop goes on to its next phase or takes the fault. -/
theorem issueInLoop_phase {s : State} (hc : s.cfg.checkStatusInLoop = false) (k : OpKind) (a b : Word) (p : Phase) :
    (issueInLoop k a b p s).phase ∈ [p, .fault] := by
  rcases issueInLoop_cases k a b p s hc with ⟨_, he⟩ | ⟨w, _, he⟩ <;> rw [he] <;> simp

/-- An operation run in IDLE stays there, starts a host operation or takes the fault. -/
theorem phase_of_ranTo {s t : State} (hp : s.phase = .idle) (h : RanTo s t) : t.phase ∈ phaseSuccessors .idle := by
  cases h <;> simp [phaseSuccessors, hp]

theorem phase_of_stepIdle {s t : State} (hp : s.phase = .idle) (h : stepIdle s = .next t) :
    t.phase ∈ phaseSuccessors .idle := by
  rcases stepIdle_ranTo h with rfl | hr
  · simp [phaseSuccessors, hp]
  · exact phase_of_ranTo (s := withoutRequest s) hp hr

theorem stepLTest_phase (s : State) : (stepLTest s).phase ∈ phaseSuccessors .lTest := by
  unfold stepLTest
  split <;> simp [phaseSuccessors]

theorem stepValidate_phase (s : State) : (stepValidate s).phase ∈ phaseSuccessors .validate := by
  unfold stepValidate
  split <;> simp [phaseSuccessors]

theorem stepFirst_phase (s : State) : (stepFirst s).phase ∈ phaseSuccessors .first := by
  unfold stepFirst
  split <;> simp [phaseSuccessors]

theorem stepRoll_phase {s : State} (hc : s.cfg.checkStatusInLoop = false) :
    (stepRoll s).phase ∈ phaseSuccessors .roll := by
  unfold stepRoll
  split
  · exact issueInLoop_phase (s := rollOver s) hc _ _ _ _
  · simp [phaseSuccessors]

theorem phase_of_stepCopy {s t : State} (hp : s.phase = .copy) (h : stepCopy s = .next t) :
    t.phase ∈ phaseSuccessors .copy := by
  rcases stepCopy_cases h with ⟨_, _, hc⟩ | ⟨_, rfl⟩
  · simp [phaseSuccessors, copyByte_phase hc, hp]
  · unfold afterCopy
    split <;> simp [phaseSuccessors]

theorem stepMMount_phase (s : State) : (stepMMount s).phase ∈ phaseSuccessors .mMount := by
  simp only [stepMMount, issue, encodeWord_zero]
  split <;> simp [phaseSuccessors]

theorem stepMFormat_phase (s : State) : (stepMFormat s).phase ∈ phaseSuccessors .mFormat := by
  simp only [stepMFormat, issueThen, encodeWord_zero, endOperation_phase]
  decide

theorem stepUUnmount_phase (s : State) : (stepUUnmount s).phase ∈ phaseSuccessors .uUnmount := by
  simp only [stepUUnmount, issue, encodeWord_zero]
  split <;> simp [phaseSuccessors]

/-- Settles O36, phase by phase. SeekBlock never takes the fault, since a 22-bit block fits ParamB. -/
theorem phaseFollowsItsSuccessors : Obligations.PhaseFollowsItsSuccessors := by
  intro s t hv ht
  obtain ⟨_, hc, _⟩ := hv
  obtain ⟨_, hcases⟩ := step_cases ht
  rcases hcases with ⟨hp, hi⟩ | ⟨hp, rfl⟩ | ⟨hp, rfl⟩ | ⟨hp, rfl⟩ | ⟨hp, rfl⟩ | ⟨hp, rfl⟩ | ⟨hp, rfl⟩ | ⟨hp, rfl⟩ |
    ⟨hp, rfl⟩ | ⟨hp, hcopy⟩ | ⟨hp, rfl⟩ | ⟨hp, rfl⟩ | ⟨hp, rfl⟩ | ⟨hp, rfl⟩ | ⟨hp, rfl⟩ | ⟨hp, rfl⟩ <;> rw [hp]
  · exact phase_of_stepIdle hp hi
  · exact stepLTest_phase s
  · exact stepValidate_phase s
  · exact stepFirst_phase s
  · exact issueInLoop_phase hc _ _ _ _
  · rw [stepSeekBlock, issueInLoop_zero_phase hc (blockParam_fits s)]
    decide
  · exact stepRoll_phase hc
  · exact issueInLoop_phase hc _ _ _ _
  · simp [stepInc, phaseSuccessors]
  · exact phase_of_stepCopy hp hcopy
  · rw [stepWbSeek, issueInLoop_zero_phase hc (previousBlockParam_fits s)]
    decide
  · exact issueInLoop_phase hc _ _ _ _
  · simp [stepIterEnd, phaseSuccessors]
  · exact stepMMount_phase s
  · exact stepMFormat_phase s
  · exact stepUUnmount_phase s

/-! ### Transfers that end at once -/

/-- The loop test with nothing left to move (R160). -/
theorem step_lTest_of_not_moreToMove {s : State} (hp : s.phase = .lTest) (hf : s.fault = false)
    (hm : moreToMove s = false) : step s = .next (endOperation .ok s) := by
  rw [step_lTest hf hp, stepLTest, hm]
  rfl

/-- The range check of a position out of range (R161). -/
theorem step_validate_of_not_inRange {s : State} (hp : s.phase = .validate) (hf : s.fault = false)
    (hr : inRange s = false) : step s = .next (endOperation .addressOutOfRange s) := by
  rw [step_validate hf hp, stepValidate, hr]
  rfl

/-- Settles O40: with length 0 the loop test after the start step finds nothing to move. -/
theorem zeroLengthIsANoOpSuccess : Obligations.ZeroLengthIsANoOpSuccess := by
  intro s address hready
  have hend (dir : HostOp) : step (startTransfer dir address 0 s) =
      .next (endOperation .ok (startTransfer dir address 0 s)) :=
    step_lTest_of_not_moreToMove rfl hready.2 ((not_moreToMove_iff _).2 (Nat.zero_le _))
  have hcap : (0 : Word).toNat ≤ s.hbCapacity := Nat.zero_le _
  exact ⟨⟨_, _, exec_hostRead_of_ready hready hcap, hend .read, rfl, rfl, rfl, rfl, rfl⟩,
    ⟨_, _, exec_hostWrite_of_ready hready hcap, hend .write, rfl, rfl, rfl, rfl, rfl⟩⟩

/-- The first two steps of a transfer that starts out of range: the loop test and the range check, which comes before any
command (R230). -/
theorem run_two_of_not_inRange {s : State} (hp : s.phase = .lTest) (hf : s.fault = false) (hm : moreToMove s = true)
    (hr : inRange s = false) :
    Host.Core.run Sys2Proof.core 2 s = .next (endOperation .addressOutOfRange (goto .validate s)) := by
  rw [run_succ_of_step (step_lTest_of_moreToMove hp hf hm),
    run_succ_of_step (step_validate_of_not_inRange (s := goto .validate s) rfl hf hr)]
  rfl

/-- Settles O41: the registers of the start step are the fields of the address, and fail the range check. -/
theorem outOfRangeIssuesNoCommand : Obligations.OutOfRangeIssuesNoCommand := by
  intro s address length hready hcap hpos hout
  have hend (dir : HostOp) : Host.Core.run Sys2Proof.core 2 (startTransfer dir address length s) =
      .next (endOperation .addressOutOfRange (goto .validate (startTransfer dir address length s))) := by
    refine run_two_of_not_inRange rfl hready.2 ((moreToMove_iff _).2 hpos) ((not_inRange_iff _).2 ?_)
    rwa [startTransfer_drum_toNat, startTransfer_block_toNat]
  exact ⟨⟨_, _, exec_hostRead_of_ready hready hcap, hend .read, rfl, rfl, rfl, rfl⟩,
    ⟨_, _, exec_hostWrite_of_ready hready hcap, hend .write, rfl, rfl, rfl, rfl⟩⟩

/-! ### The statuses of the loop -/

/-- `s` with other coming answers and another trace. -/
def withHistory (answers : List Answer) (trace : List Exchange) (s : State) : State :=
  { s with answers := answers, trace := trace }

/-- Two states that differ only in the statuses of the coming answers and of the trace. -/
structure AlikeButStatuses (s s' : State) : Prop where
  rest : s' = withHistory s'.answers s'.trace s
  answers : s.answers.map Answer.buffer = s'.answers.map Answer.buffer
  trace : List.Forall₂ SameButStatus s.trace s'.trace

/-- An update that does not read the history, and so does not write it, keeps two states alike. -/
theorem AlikeButStatuses.update {s s' : State} (h : AlikeButStatuses s s') {f : State → State}
    (hf : ∀ as es u, f (withHistory as es u) = withHistory as es (f u)) : AlikeButStatuses (f s) (f s') := by
  obtain ⟨hrest, hanswers, htrace⟩ := h
  have hs : f s = withHistory s.answers s.trace (f s) := hf s.answers s.trace s
  have hs' : f s' = withHistory s'.answers s'.trace (f s) := (congrArg f hrest).trans (hf _ _ s)
  rw [hs, hs']
  exact ⟨rfl, hanswers, htrace⟩

/-- A Submit uses up the next answer on both sides and records two exchanges that differ in the status at most. -/
theorem AlikeButStatuses.submit {s s' : State} (h : AlikeButStatuses s s') (hne : s.answers ≠ []) (w : Word)
    (m : Option Memory) : AlikeButStatuses (submit w m s) (submit w m s') := by
  obtain ⟨hrest, hanswers, htrace⟩ := h
  obtain ⟨d, ds, hd⟩ := List.exists_cons_of_ne_nil hne
  obtain ⟨d', ds', hd'⟩ := List.exists_cons_of_ne_nil (l := s'.answers) fun h' => hne (by simpa [h'] using hanswers)
  rw [hd, hd', List.map_cons, List.map_cons, List.cons.injEq] at hanswers
  obtain ⟨hbuffer, hbuffers⟩ := hanswers
  have hreturned : returnedBuffer m d = returnedBuffer m d' := by
    cases m <;> simp [returnedBuffer, hbuffer]
  refine ⟨?_, by simpa [hd, hd'] using hbuffers, ?_⟩
  · rw [hrest, hd']
    simp [Machine.submit, withHistory, nextAnswer, hd, hreturned]
  · rw [submit_trace, submit_trace, nextAnswer_of_answers hd, nextAnswer_of_answers hd']
    exact List.rel_append htrace (.cons ⟨rfl, rfl, hreturned⟩ .nil)

theorem AlikeButStatuses.cfg {s s' : State} (h : AlikeButStatuses s s') : s'.cfg = s.cfg := by
  rw [h.rest]
  rfl

theorem bufferArg_withHistory (k : OpKind) (as : List Answer) (es : List Exchange) (s : State) :
    bufferArg k (withHistory as es s) = bufferArg k s := by
  cases k <;> rfl

/-- A command of the loop, whose parameters are the same on both sides. -/
theorem AlikeButStatuses.issueInLoop {s s' : State} (h : AlikeButStatuses s s') (hne : s.answers ≠ [])
    (hc : s.cfg.checkStatusInLoop = false) (k : OpKind) (a b : Word) (p : Phase) :
    AlikeButStatuses (issueInLoop k a b p s) (issueInLoop k a b p s') := by
  have hk : bufferArg k s' = bufferArg k s := by rw [h.rest, bufferArg_withHistory]
  simp only [Machine.issueInLoop, issueThen, h.cfg, hc, hk]
  cases encodeWord s.cfg.opc k a b with
  | none => exact h.update (f := enterFault) fun _ _ _ => rfl
  | some w => exact (h.submit hne w _).update (f := goto p) fun _ _ _ => rfl

/-- A step that may stop, and where it does not stop neither reads nor writes the history. -/
theorem AlikeButStatuses.outcome {s s' t : State} (h : AlikeButStatuses s s')
    {g : State → Host.Outcome State Fault Refusal}
    (hg : ∀ {u v} as es, g u = .next v → g (withHistory as es u) = .next (withHistory as es v)) (ht : g s = .next t) :
    ∃ t', g s' = .next t' ∧ AlikeButStatuses t t' := by
  obtain ⟨hrest, hanswers, htrace⟩ := h
  have hs : t = withHistory s.answers s.trace t := Host.Outcome.next.inj (ht.symm.trans (hg s.answers s.trace ht))
  have hs' : g s' = .next (withHistory s'.answers s'.trace t) := (congrArg g hrest).trans (hg _ _ ht)
  refine ⟨_, hs', rfl, ?_, ?_⟩ <;> rw [hs]
  · exact hanswers
  · exact htrace

theorem copyByte_withHistory {s t : State} (as : List Answer) (es : List Exchange) (h : copyByte s = .next t) :
    copyByte (withHistory as es s) = .next (withHistory as es t) := by
  rcases copyByte_cases h with ⟨hop, v, hv, rfl⟩ | ⟨hop, rfl⟩ | ⟨hop | hop, rfl⟩
  · simp [copyByte, withHistory, hop, hv, advance]
  · simp [copyByte, withHistory, hop, hostByte, advance]
  · simp [copyByte, withHistory, hop, advance]
  · simp [copyByte, withHistory, hop, advance]

theorem stepCopy_withHistory {s t : State} (as : List Answer) (es : List Exchange) (h : stepCopy s = .next t) :
    stepCopy (withHistory as es s) = .next (withHistory as es t) := by
  rcases stepCopy_cases h with ⟨hm, hr, hc⟩ | ⟨hover, rfl⟩
  · exact (if_pos (Bool.and_eq_true_iff.2 ⟨hm, hr⟩)).trans (copyByte_withHistory as es hc)
  · exact if_neg (Bool.eq_false_iff.1 hover)

theorem stepLTest_withHistory (as : List Answer) (es : List Exchange) (s : State) :
    stepLTest (withHistory as es s) = withHistory as es (stepLTest s) :=
  (apply_ite (withHistory as es) (moreToMove s = true) (goto .validate s) (endOperation .ok s)).symm

theorem stepValidate_withHistory (as : List Answer) (es : List Exchange) (s : State) :
    stepValidate (withHistory as es s) = withHistory as es (stepValidate s) :=
  (apply_ite (withHistory as es) (inRange s = true) (goto .first s) (endOperation .addressOutOfRange s)).symm

theorem stepFirst_withHistory (as : List Answer) (es : List Exchange) (s : State) :
    stepFirst (withHistory as es s) = withHistory as es (stepFirst s) :=
  (apply_ite (withHistory as es) (isFirstIteration s = true) (goto .seekDrum (cursorAtOffset s))
    (goto .roll (cursorAtZero s))).symm

/-- ROLL tests the block, which is the same on both sides, and issues one command or none. -/
theorem AlikeButStatuses.stepRoll {s s' : State} (h : AlikeButStatuses s s') (hne : s.answers ≠ [])
    (hc : s.cfg.checkStatusInLoop = false) : AlikeButStatuses (stepRoll s) (stepRoll s') := by
  have hdue : rolloverDue s' = rolloverDue s := (congrArg rolloverDue h.rest).trans rfl
  have hroll : AlikeButStatuses (rollOver s) (rollOver s') := h.update fun _ _ _ => rfl
  have hparam : drumParam (rollOver s') = drumParam (rollOver s) := (congrArg drumParam hroll.rest).trans rfl
  unfold Machine.stepRoll
  rw [hdue, hparam]
  split
  · exact hroll.issueInLoop hne hc _ _ _ _
  · exact h.update (f := goto .dread) fun _ _ _ => rfl

/-- Settles O45, phase by phase: a step that submits nothing does not read the history, and a command of the loop has the
same parameters on both sides and the same next phase, whatever the status. -/
theorem loopIgnoresStatuses : Obligations.LoopIgnoresStatuses := by
  intro s s' t hv hmem hne hrest hanswers htrace ht
  obtain ⟨_, hc, _⟩ := hv
  have h : AlikeButStatuses s s' := ⟨hrest, hanswers, htrace⟩
  suffices hstep : ∃ t', step s' = .next t' ∧ AlikeButStatuses t t' by
    obtain ⟨t', hs', hrest', hanswers', htrace'⟩ := hstep
    exact ⟨t', hs', hrest', hanswers', htrace'⟩
  obtain ⟨hh, hcases⟩ := step_cases ht
  have hf' : s'.fault = false := (congrArg State.fault hrest).trans ((not_halted_iff s).1 hh).1
  have hphase {p : Phase} (hp : s.phase = p) : s'.phase = p := (congrArg State.phase hrest).trans hp
  have hdrum : drumParam s' = drumParam s := (congrArg drumParam hrest).trans rfl
  have hblock : blockParam s' = blockParam s := (congrArg blockParam hrest).trans rfl
  have hprevious : previousBlockParam s' = previousBlockParam s := (congrArg previousBlockParam hrest).trans rfl
  rcases hcases with ⟨hp, _⟩ | ⟨hp, rfl⟩ | ⟨hp, rfl⟩ | ⟨hp, rfl⟩ | ⟨hp, rfl⟩ | ⟨hp, rfl⟩ | ⟨hp, rfl⟩ | ⟨hp, rfl⟩ |
    ⟨hp, rfl⟩ | ⟨hp, hcopy⟩ | ⟨hp, rfl⟩ | ⟨hp, rfl⟩ | ⟨hp, rfl⟩ | ⟨hp, _⟩ | ⟨hp, _⟩ | ⟨hp, _⟩
  · simp [hp, transferPhases] at hmem
  · exact ⟨_, step_lTest hf' (hphase hp), h.update stepLTest_withHistory⟩
  · exact ⟨_, step_validate hf' (hphase hp), h.update stepValidate_withHistory⟩
  · exact ⟨_, step_first hf' (hphase hp), h.update stepFirst_withHistory⟩
  · refine ⟨_, step_seekDrum hf' (hphase hp), ?_⟩
    rw [stepSeekDrum, stepSeekDrum, hdrum]
    exact h.issueInLoop hne hc _ _ _ _
  · refine ⟨_, step_seekBlock hf' (hphase hp), ?_⟩
    rw [stepSeekBlock, stepSeekBlock, hblock]
    exact h.issueInLoop hne hc _ _ _ _
  · exact ⟨_, step_roll hf' (hphase hp), h.stepRoll hne hc⟩
  · refine ⟨_, step_dread hf' (hphase hp), ?_⟩
    rw [stepDread, stepDread, hdrum, hblock]
    exact h.issueInLoop hne hc _ _ _ _
  · exact ⟨_, step_inc hf' (hphase hp), h.update (f := stepInc) fun _ _ _ => rfl⟩
  · rw [step_copy hf' (hphase hp)]
    exact h.outcome stepCopy_withHistory hcopy
  · refine ⟨_, step_wbSeek hf' (hphase hp), ?_⟩
    rw [stepWbSeek, stepWbSeek, hprevious]
    exact h.issueInLoop hne hc _ _ _ _
  · refine ⟨_, step_wbWrite hf' (hphase hp), ?_⟩
    rw [stepWbWrite, stepWbWrite, hdrum, hblock]
    exact h.issueInLoop hne hc _ _ _ _
  · exact ⟨_, step_iterEnd hf' (hphase hp), h.update (f := stepIterEnd) fun _ _ _ => rfl⟩
  all_goals simp [hp, transferPhases] at hmem

end Sys2Proof.Machine
end

section
/-! PROOF. O46: the steps and XFER agree (43_io_sequencer.md R156). Each part of XFER is what the steps from one phase to
another do; the parts are joined as XFER joins them, and the outer loop is an induction on the bytes left to move. -/

namespace Sys2Proof.Machine

/-! ### Where a part of XFER leaves off -/

/-- One part goes on only where the part before it does. -/
theorem flowThen_eq_goesOn {f : Flow} {k : State → Flow} {t : State} :
    flowThen f k = .goesOn t ↔ ∃ u, f = .goesOn u ∧ k u = .goesOn t := by
  cases f <;> simp [flowThen]

theorem flowThen_goesOn (s : State) (k : State → Flow) : flowThen (.goesOn s) k = k s := rfl

/-- A command of XFER that goes on is one exchange. -/
theorem eq_submit_of_xferCommand {k : OpKind} {a b : Word} {s t : State} (h : xferCommand k a b s = .goesOn t) :
    ∃ w, encodeWord s.cfg.opc k a b = some w ∧ t = submit w (bufferArg k s) s := by
  unfold xferCommand at h
  split at h
  · cases h
  · next w hw =>
    split at h
    · cases h
    · cases h
      exact ⟨w, hw, rfl⟩

/-- The six parts of an iteration that goes on, one after another (R156, steps 2a to 2g). -/
theorem parts_of_xferBlock {s t : State} (h : xferBlock s = .goesOn t) :
    inRange s = true ∧ ∃ s1 s2 s3 s4 s5, xferFirst s = .goesOn s1 ∧ xferRoll s1 = .goesOn s2 ∧
      xferCommand .diskRead (drumParam s2) (blockParam s2) s2 = .goesOn s3 ∧
      xferCopy blockSize (nextBlock s3) = .goesOn s4 ∧ xferWriteBack s4 = .goesOn s5 ∧ t = clearFirst s5 := by
  unfold xferBlock at h
  split at h
  · next hr =>
    simp only [flowThen_eq_goesOn] at h
    obtain ⟨s1, h1, s2, h2, s3, h3, s4, h4, s5, h5, ht⟩ := h
    cases ht
    exact ⟨hr, s1, s2, s3, s4, s5, h1, h2, h3, h4, h5, rfl⟩
  · cases h

/-- The first iteration submits the two seeks, a later one nothing (step 2b). -/
theorem eq_of_xferFirst {s t : State} (h : xferFirst s = .goesOn t) :
    (isFirstIteration s = true ∧ ∃ w w', encodeWord s.cfg.opc .seekDrum (drumParam s) 0 = some w ∧
      encodeWord s.cfg.opc .seekBlock 0 (blockParam s) = some w' ∧
      t = submit w' none (submit w none (cursorAtOffset s))) ∨
    (isFirstIteration s = false ∧ t = cursorAtZero s) := by
  unfold xferFirst at h
  split at h
  · next hi =>
    obtain ⟨u, hu, ht⟩ := flowThen_eq_goesOn.1 h
    obtain ⟨w, hw, rfl⟩ := eq_submit_of_xferCommand hu
    obtain ⟨w', hw', rfl⟩ := eq_submit_of_xferCommand ht
    exact .inl ⟨hi, w, w', hw, hw', rfl⟩
  · next hi =>
    cases h
    exact .inr ⟨Bool.eq_false_iff.2 hi, rfl⟩

/-- A rollover submits a SeekDrum, and without one nothing happens (step 2c). -/
theorem eq_of_xferRoll {s t : State} (h : xferRoll s = .goesOn t) :
    (rolloverDue s = true ∧ ∃ w, encodeWord s.cfg.opc .seekDrum (drumParam (rollOver s)) 0 = some w ∧
      t = submit w none (rollOver s)) ∨
    (rolloverDue s = false ∧ t = s) := by
  unfold xferRoll at h
  split at h
  · next hr =>
    obtain ⟨w, hw, rfl⟩ := eq_submit_of_xferCommand h
    exact .inl ⟨hr, w, hw, rfl⟩
  · next hr =>
    cases h
    exact .inr ⟨Bool.eq_false_iff.2 hr, rfl⟩

/-- WRITE submits SeekBlock and DiskWrite, READ nothing (step 2g). -/
theorem eq_of_xferWriteBack {s t : State} (h : xferWriteBack s = .goesOn t) :
    (s.op = .write ∧ ∃ w w', encodeWord s.cfg.opc .seekBlock 0 (previousBlockParam s) = some w ∧
      encodeWord s.cfg.opc .diskWrite (drumParam s) (blockParam s) = some w' ∧
      t = submit w' (some s.bb) (submit w none s)) ∨
    (s.op ≠ .write ∧ t = s) := by
  unfold xferWriteBack at h
  split at h
  · next hop =>
    obtain ⟨u, hu, ht⟩ := flowThen_eq_goesOn.1 h
    obtain ⟨w, hw, rfl⟩ := eq_submit_of_xferCommand hu
    obtain ⟨w', hw', rfl⟩ := eq_submit_of_xferCommand ht
    exact .inl ⟨hop, w, w', hw, hw', rfl⟩
  · next hop =>
    cases h
    exact .inr ⟨hop, rfl⟩

/-! ### Every iteration moves a byte -/

/-- The bytes a transfer still has to move. -/
def bytesLeft (s : State) : Nat := s.length.toNat - s.transferred.toNat

theorem moreToMove_iff_bytesLeft (s : State) : moreToMove s = true ↔ 0 < bytesLeft s := by
  rw [moreToMove_iff, bytesLeft]
  omega

theorem bytesLeft_of_copyByte {s t : State} (hm : moreToMove s = true) (h : copyByte s = .next t) :
    bytesLeft t + 1 = bytesLeft s := by
  have hless := (moreToMove_iff s).1 hm
  have hcount : t.length = s.length ∧ t.transferred = s.transferred + 1 := by
    rcases copyByte_cases h with ⟨_, _, _, rfl⟩ | ⟨_, rfl⟩ | ⟨_, rfl⟩ <;> exact ⟨rfl, rfl⟩
  obtain ⟨hlength, hmoved⟩ := hcount
  rw [bytesLeft, bytesLeft, hlength, hmoved]
  bv_omega

/-- No update of XFER adds to the bytes left. -/
theorem bytesLeft_le_keptByUpdates (n : Nat) : KeptByUpdates fun t => bytesLeft t ≤ n where
  submit _ _ h := h
  enterFault h := h
  endOperation _ h := h
  cursorAtOffset h := h
  cursorAtZero h := h
  rollOver h := h
  nextBlock h := h
  clearFirst h := h
  copyByte h hm ht := by
    have := bytesLeft_of_copyByte hm ht
    omega

/-- With bytes left and room in the block, the inner loop moves at least one. -/
theorem bytesLeft_of_xferCopy {n : Nat} {s t : State} (hm : moreToMove s = true) (hr : roomInBlock s = true)
    (h : xferCopy (n + 1) s = .goesOn t) : bytesLeft t < bytesLeft s := by
  rw [xferCopy, if_pos (Bool.and_eq_true_iff.2 ⟨hm, hr⟩)] at h
  split at h
  · next u hu =>
    have hrest := lands_xferCopy (bytesLeft_le_keptByUpdates (bytesLeft u)) n (le_refl (bytesLeft u))
    rw [h] at hrest
    have := bytesLeft_of_copyByte hm hu
    exact Nat.lt_of_le_of_lt hrest (by omega)
  · cases h
  · cases h

/-- The first-iteration test leaves room in the block and the counters alone (R162). -/
theorem counters_of_xferFirst {s t : State} (h : xferFirst s = .goesOn t) :
    roomInBlock t = true ∧ t.transferred = s.transferred ∧ t.length = s.length := by
  rcases eq_of_xferFirst h with ⟨_, w, w', _, _, rfl⟩ | ⟨_, rfl⟩
  · refine ⟨(roomInBlock_iff _).2 ?_, rfl, rfl⟩
    change (s.byteOffset.setWidth 9).toNat < 256
    rw [BitVec.toNat_setWidth_of_le (by decide)]
    exact s.byteOffset.isLt
  · exact ⟨rfl, rfl, rfl⟩

/-- An iteration that goes on has moved at least one byte (R170). -/
theorem bytesLeft_of_xferBlock {s t : State} (hm : moreToMove s = true) (h : xferBlock s = .goesOn t) :
    bytesLeft t < bytesLeft s := by
  obtain ⟨_, s1, s2, s3, s4, s5, h1, h2, h3, h4, h5, rfl⟩ := parts_of_xferBlock h
  obtain ⟨hroom, hmoved, hlength⟩ := counters_of_xferFirst h1
  have hcounters : roomInBlock (nextBlock s3) = roomInBlock s1 ∧ (nextBlock s3).transferred = s1.transferred ∧
      (nextBlock s3).length = s1.length := by
    obtain ⟨w, _, rfl⟩ := eq_submit_of_xferCommand h3
    rcases eq_of_xferRoll h2 with ⟨_, _, _, rfl⟩ | ⟨_, rfl⟩ <;> exact ⟨rfl, rfl, rfl⟩
  obtain ⟨hroom3, hmoved3, hlength3⟩ := hcounters
  have hless := bytesLeft_of_xferCopy ((moreToMove_congr (hmoved3.trans hmoved) (hlength3.trans hlength)).trans hm)
    (hroom3.trans hroom) h4
  have hback : bytesLeft s5 = bytesLeft s4 := by
    rcases eq_of_xferWriteBack h5 with ⟨_, _, _, _, _, rfl⟩ | ⟨_, rfl⟩ <;> rfl
  have hstart : bytesLeft (nextBlock s3) = bytesLeft s := by
    rw [bytesLeft, bytesLeft, hmoved3, hmoved, hlength3, hlength]
  exact hstart ▸ hback ▸ hless

/-! ### The steps of a part -/

/-- From phase `p` in `s` the steps do what the part `f` of XFER does: they reach the state `t` in which it goes on, in
phase `q t`, or the outcome in which it ends; in at most `c` steps and one for each byte moved. -/
def Simulates (p : Phase) (q : State → Phase) (c : Nat) (s : State) : Flow → Prop
  | .goesOn t => t.fault = false ∧ ∃ j, j + bytesLeft t ≤ c + bytesLeft s ∧
      ∀ k, Host.Core.run Sys2Proof.core (j + k) (goto p s) = Host.Core.run Sys2Proof.core k (goto (q t) t)
  | .ends o => ∃ j, j ≤ c + bytesLeft s ∧ Host.Core.run Sys2Proof.core j (goto p s) = o

/-- One part after another, as XFER joins them. -/
theorem Simulates.flowThen {p : Phase} {q r : State → Phase} {c d : Nat} {s : State} {f : Flow} {k : State → Flow}
    (hf : Simulates p q c s f) (hk : ∀ t, t.fault = false → Simulates (q t) r d t (k t)) :
    Simulates p r (c + d) s (flowThen f k) := by
  cases f with
  | ends o =>
    obtain ⟨j, hj, hrun⟩ := hf
    exact ⟨j, by omega, hrun⟩
  | goesOn t =>
    obtain ⟨hfault, j, hj, hrun⟩ := hf
    have hnext := hk t hfault
    rw [flowThen_goesOn]
    generalize k t = g at hnext ⊢
    cases g with
    | goesOn u =>
      obtain ⟨hfault', j', hj', hrun'⟩ := hnext
      exact ⟨hfault', j + j', by omega, fun m => by rw [Nat.add_assoc, hrun, hrun']⟩
    | ends o =>
      obtain ⟨j', hj', hrun'⟩ := hnext
      exact ⟨j + j', by omega, by rw [hrun, hrun']⟩

/-- A part with nothing to do takes no step. -/
theorem simulates_goesOn {p : Phase} {q : State → Phase} {s : State} (hf : s.fault = false) (hp : q s = p) :
    Simulates p q 0 s (.goesOn s) :=
  ⟨hf, 0, Nat.le_refl _, fun k => by rw [Nat.zero_add, hp]⟩

theorem Simulates.mono {p : Phase} {q : State → Phase} {c d : Nat} {s : State} {f : Flow} (h : Simulates p q c s f)
    (hcd : c ≤ d) : Simulates p q d s f := by
  cases f with
  | goesOn t =>
    obtain ⟨hfault, j, hj, hrun⟩ := h
    exact ⟨hfault, j, by omega, hrun⟩
  | ends o =>
    obtain ⟨j, hj, hrun⟩ := h
    exact ⟨j, by omega, hrun⟩

/-- One step, and then the steps of the rest of the part. -/
theorem Simulates.after_step {p p' : Phase} {q : State → Phase} {c d : Nat} {s t : State} {f : Flow}
    (hstep : step (goto p s) = .next (goto p' t)) (hcost : 1 + c + bytesLeft t ≤ d + bytesLeft s)
    (h : Simulates p' q c t f) : Simulates p q d s f := by
  cases f with
  | goesOn u =>
    obtain ⟨hfault, j, hj, hrun⟩ := h
    exact ⟨hfault, j + 1, by omega, fun k => by rw [Nat.add_right_comm, run_succ_of_step hstep, hrun]⟩
  | ends o =>
    obtain ⟨j, hj, hrun⟩ := h
    exact ⟨j + 1, by omega, by rw [run_succ_of_step hstep, hrun]⟩

/-- A part that is one step. -/
theorem simulates_step {p : Phase} {q : State → Phase} {s t : State} (hf : t.fault = false)
    (hleft : bytesLeft t = bytesLeft s) (hstep : step (goto p s) = .next (goto (q t) t)) :
    Simulates p q 1 s (.goesOn t) :=
  (simulates_goesOn hf rfl).after_step hstep (Nat.le_of_eq (congrArg _ hleft))

theorem run_one (s : State) : Host.Core.run Sys2Proof.core 1 s = step s := by
  have hstep : Sys2Proof.core.step s = step s := rfl
  simp only [Host.Core.run, hstep]
  cases step s <;> rfl

/-- A part that ends where one step ends. -/
theorem simulates_ends {p : Phase} {q : State → Phase} {s : State} {o : Host.Outcome State Fault Refusal}
    (h : step (goto p s) = o) : Simulates p q 1 s (.ends o) :=
  ⟨1, Nat.le_add_right _ _, (run_one _).trans h⟩

/-! ### The parts of an iteration -/

theorem bufferArg_goto (k : OpKind) (p : Phase) (s : State) : bufferArg k (goto p s) = bufferArg k s := by
  cases k <;> rfl

/-- A command of the loop does what the command of XFER does, also where the loop looks at the status (93 U2). The update
`u` of `s` before the command is part of the same step. -/
theorem simulates_xferCommand {k : OpKind} {a b : Word} {p q : Phase} {s u : State} (hf : u.fault = false)
    (hleft : bytesLeft u = bytesLeft s) (hstep : step (goto p s) = .next (issueInLoop k a b q (goto p u))) :
    Simulates p (fun _ => q) 1 s (xferCommand k a b u) := by
  simp only [issueInLoop, issue, issueThen, goto_cfg, bufferArg_goto] at hstep
  unfold xferCommand
  cases hw : encodeWord u.cfg.opc k a b with
  | none =>
    simp only [hw, ite_self] at hstep
    exact simulates_ends hstep
  | some w =>
    simp only [hw] at hstep
    dsimp only
    split
    · next hfail =>
      obtain ⟨hcheck, hfailed⟩ := Bool.and_eq_true_iff.1 hfail
      rw [if_pos hcheck, if_pos (show submitFailed w (bufferArg k u) (goto p u) = true from hfailed)] at hstep
      exact simulates_ends hstep
    · next hgoes =>
      refine simulates_step hf hleft (hstep.trans ?_)
      cases hcheck : u.cfg.checkStatusInLoop with
      | false => rfl
      | true =>
        have hfailed : ¬submitFailed w (bufferArg k u) (goto p u) = true := fun h => hgoes (by rw [hcheck]; exact h)
        rw [if_pos rfl, if_neg hfailed]
        rfl

/-- FIRST, SEEK_DRUM and SEEK_BLOCK are step 2b. -/
theorem simulates_xferFirst {s : State} (hf : s.fault = false) :
    Simulates .first (fun _ => .roll) 3 s (xferFirst s) := by
  have hstep : step (goto .first s) =
      .next (if isFirstIteration s then goto .seekDrum (cursorAtOffset s) else goto .roll (cursorAtZero s)) :=
    step_first hf rfl
  unfold xferFirst
  split
  · next hi =>
    rw [if_pos hi] at hstep
    have hdrum : Simulates .seekDrum (fun _ => .seekBlock) 1 (cursorAtOffset s)
        (xferCommand .seekDrum (drumParam s) 0 (cursorAtOffset s)) :=
      simulates_xferCommand hf rfl (step_seekDrum hf rfl)
    have hseeks := hdrum.flowThen (r := fun _ => .roll) (d := 1)
      (k := fun t => xferCommand .seekBlock 0 (blockParam t) t)
      fun t ht => simulates_xferCommand ht rfl (step_seekBlock ht rfl)
    exact hseeks.after_step hstep (Nat.le_refl _)
  · next hi =>
    rw [if_neg hi] at hstep
    have htest : Simulates .first (fun _ => .roll) 1 s (.goesOn (cursorAtZero s)) := simulates_step hf rfl hstep
    exact htest.mono (by decide)

/-- ROLL is step 2c. -/
theorem simulates_xferRoll {s : State} (hf : s.fault = false) :
    Simulates .roll (fun _ => .dread) 1 s (xferRoll s) := by
  have hstep : step (goto .roll s) = .next
      (if rolloverDue s then issueInLoop .seekDrum (drumParam (rollOver s)) 0 .dread (goto .roll (rollOver s))
        else goto .dread s) :=
    step_roll hf rfl
  unfold xferRoll
  split
  · next hr =>
    rw [if_pos hr] at hstep
    exact simulates_xferCommand (u := rollOver s) hf rfl hstep
  · next hr =>
    rw [if_neg hr] at hstep
    exact simulates_step hf rfl hstep

/-- Where COPY moves a byte it moves it in any phase. -/
theorem copyByte_goto (p : Phase) {s t : State} (h : copyByte s = .next t) :
    copyByte (goto p s) = .next (goto p t) := by
  rcases copyByte_cases h with ⟨hop, v, hv, rfl⟩ | ⟨hop, rfl⟩ | ⟨hop | hop, rfl⟩
  · simp [copyByte, hop, hv, goto, advance]
  · simp [copyByte, hop, goto, hostByte, advance]
  · simp [copyByte, hop, goto, advance]
  · simp [copyByte, hop, goto, advance]

theorem copyByte_ne_refused (s : State) (r : Refusal) : copyByte s ≠ .refused r := by
  unfold copyByte
  split
  · split <;> simp
  all_goals simp

/-- Where COPY stops it stops in any phase. -/
theorem copyByte_goto_of_fault (p : Phase) {s : State} {f : Fault} (h : copyByte s = .fault f) :
    copyByte (goto p s) = .fault f := by
  obtain ⟨hop, hv, rfl⟩ := copyByte_stops h
  simp [copyByte, hop, hv]

theorem cursor_of_copyByte {s t : State} (h : copyByte s = .next t) : t.cursor = s.cursor + 1 := by
  rcases copyByte_cases h with ⟨_, _, _, rfl⟩ | ⟨_, rfl⟩ | ⟨_, rfl⟩ <;> rfl

theorem fault_of_copyByte {s t : State} (h : copyByte s = .next t) : t.fault = s.fault := by
  rcases copyByte_cases h with ⟨_, _, _, rfl⟩ | ⟨_, rfl⟩ | ⟨_, rfl⟩ <;> rfl

theorem step_goto_copy {s : State} (hf : s.fault = false) :
    step (goto .copy s) =
      if moreToMove s && roomInBlock s then copyByte (goto .copy s) else .next (goto (afterCopy s.op) s) :=
  step_copy hf rfl

/-- Where the inner loop is over, COPY leaves it (R170). -/
theorem simulates_leavingCopy {s : State} (hf : s.fault = false) (h : ¬(moreToMove s && roomInBlock s) = true) :
    Simulates .copy (fun t => afterCopy t.op) 1 s (.goesOn s) :=
  simulates_step hf rfl ((step_goto_copy hf).trans (if_neg h))

/-- COPY, as often as the block has room, is step 2f; it leaves off in the phase R170 names. -/
theorem simulates_xferCopy {n : Nat} {s : State} (hf : s.fault = false) (hn : 256 - s.cursor.toNat ≤ n) :
    Simulates .copy (fun t => afterCopy t.op) 1 s (xferCopy n s) := by
  induction n generalizing s with
  | zero =>
    have hfull : roomInBlock s = false := (not_roomInBlock_iff s).2 (by omega)
    exact simulates_leavingCopy hf (by simp [hfull])
  | succ n ih =>
    unfold xferCopy
    split
    · next hc =>
      obtain ⟨hm, hr⟩ := Bool.and_eq_true_iff.1 hc
      have hroom := (roomInBlock_iff s).1 hr
      have hstep : step (goto .copy s) = copyByte (goto .copy s) := (step_goto_copy hf).trans (if_pos hc)
      split
      · next t ht =>
        have hleft := bytesLeft_of_copyByte hm ht
        have hcursor : 256 - t.cursor.toNat ≤ n := by
          rw [cursor_of_copyByte ht]
          bv_omega
        refine (ih ((fault_of_copyByte ht).trans hf) hcursor).after_step (hstep.trans (copyByte_goto _ ht)) (by omega)
      · next f hstop => exact simulates_ends (hstep.trans (copyByte_goto_of_fault _ hstop))
      · next r hr => exact absurd hr (copyByte_ne_refused s r)
    · next hc => exact simulates_leavingCopy hf hc

/-- WB_SEEK and WB_WRITE are step 2g. -/
theorem simulates_xferWriteBack {s : State} (hf : s.fault = false) :
    Simulates (afterCopy s.op) (fun _ => .iterEnd) 2 s (xferWriteBack s) := by
  unfold xferWriteBack afterCopy
  split
  · have hseek : Simulates .wbSeek (fun _ => .wbWrite) 1 s (xferCommand .seekBlock 0 (previousBlockParam s) s) :=
      simulates_xferCommand hf rfl (step_wbSeek hf rfl)
    exact hseek.flowThen (k := fun t => xferCommand .diskWrite (drumParam t) (blockParam t) t)
      fun t ht => simulates_xferCommand ht rfl (step_wbWrite ht rfl)
  · exact (simulates_goesOn (q := fun _ => .iterEnd) hf rfl).mono (by decide)

/-- From the range check to the loop test, the steps are the loop body of XFER. -/
theorem simulates_xferBlock {s : State} (hf : s.fault = false) :
    Simulates .validate (fun _ => .lTest) 11 s (xferBlock s) := by
  have hstep : step (goto .validate s) =
      .next (if inRange s then goto .first s else endOperation .addressOutOfRange s) :=
    step_validate hf rfl
  unfold xferBlock
  split
  · next hr =>
    rw [if_pos hr] at hstep
    refine Simulates.after_step (t := s) (c := 10) hstep (Nat.le_refl _) ?_
    refine (simulates_xferFirst hf).flowThen (d := 7) fun s1 h1 => ?_
    refine (simulates_xferRoll h1).flowThen (d := 6) fun s2 h2 => ?_
    refine (simulates_xferCommand (p := .dread) (q := .inc) h2 rfl (step_dread h2 rfl)).flowThen (d := 5) fun s3 h3 => ?_
    refine Simulates.after_step (t := nextBlock s3) (c := 4) (step_inc h3 rfl) (Nat.le_refl _) ?_
    refine (simulates_xferCopy (s := nextBlock s3) h3 (Nat.sub_le _ _)).flowThen (d := 3) fun s4 h4 => ?_
    exact (simulates_xferWriteBack h4).flowThen (d := 1) fun s5 h5 =>
      simulates_step (t := clearFirst s5) h5 rfl (step_iterEnd h5 rfl)
  · next hr =>
    rw [if_neg hr] at hstep
    exact (simulates_ends hstep).mono (by decide)

/-! ### The whole transfer -/

theorem step_goto_lTest {s : State} (hf : s.fault = false) :
    step (goto .lTest s) = .next (if moreToMove s then goto .validate s else endOperation .ok s) :=
  step_lTest hf rfl

/-- With nothing left the loop test is the last step. -/
theorem run_one_of_not_moreToMove {s : State} (hf : s.fault = false) (hm : ¬moreToMove s = true) :
    Host.Core.run Sys2Proof.core 1 (goto .lTest s) = .next (endOperation .ok s) :=
  (run_one _).trans ((step_goto_lTest hf).trans (congrArg _ (if_neg hm)))

/-- From the loop test to the end of the operation: every byte left costs at most 13 steps, and the last test one. -/
theorem run_eq_xferLoop {n : Nat} {s : State} (hf : s.fault = false) (hn : bytesLeft s ≤ n) :
    ∃ j, j ≤ 13 * bytesLeft s + 1 ∧ Host.Core.run Sys2Proof.core j (goto .lTest s) = xferLoop n s := by
  induction n generalizing s with
  | zero =>
    have hm : ¬moreToMove s = true := by
      rw [moreToMove_iff_bytesLeft]
      omega
    exact ⟨1, Nat.le_add_left _ _, run_one_of_not_moreToMove hf hm⟩
  | succ n ih =>
    unfold xferLoop
    split
    · next hm =>
      have hstep : step (goto .lTest s) = .next (goto .validate s) :=
        (step_goto_lTest hf).trans (congrArg _ (if_pos hm))
      have hblock := simulates_xferBlock hf
      have hprogress := (moreToMove_iff_bytesLeft s).1 hm
      split
      · next t ht =>
        have hless := bytesLeft_of_xferBlock hm ht
        rw [ht] at hblock
        obtain ⟨hf', j, hj, hrun⟩ := hblock
        obtain ⟨j', hj', hrun'⟩ := ih hf' (by omega)
        exact ⟨j + j' + 1, by omega, by rw [run_succ_of_step hstep, hrun, hrun']⟩
      · next o ho =>
        rw [ho] at hblock
        obtain ⟨j, hj, hrun⟩ := hblock
        exact ⟨j + 1, by omega, by rw [run_succ_of_step hstep, hrun]⟩
    · next hm => exact ⟨1, Nat.le_add_left _ _, run_one_of_not_moreToMove hf hm⟩

/-- The steps after the start step, and XFER. -/
theorem run_eq_xfer {s : State} (hf : s.fault = false) (dir : HostOp) (address length : Word) :
    ∃ k, k ≤ 13 * length.toNat + 1 ∧
      Host.Core.run Sys2Proof.core k (startTransfer dir address length s) = xfer dir address length s :=
  run_eq_xferLoop (s := startTransfer dir address length s) hf (Nat.le_refl _)

/-! ### Where XFER ends -/

/-- A state in which a transfer has failed: in FAULT, or back in IDLE with an error as its result. -/
def Failed (u : State) : Prop := u.phase = .fault ∨ u.phase = .idle ∧ u.result ≠ .ok

/-- Where a part of XFER ends the operation in a state, the transfer has failed. -/
def Flow.FailsAtEnd (f : Flow) : Prop := ∀ u, f = .ends (.next u) → Failed u

theorem failsAtEnd_goesOn (s : State) : (Flow.goesOn s).FailsAtEnd := by
  rintro u ⟨⟩

theorem Flow.FailsAtEnd.flowThen {f : Flow} {k : State → Flow} (hf : f.FailsAtEnd) (hk : ∀ t, (k t).FailsAtEnd) :
    (flowThen f k).FailsAtEnd := by
  cases f with
  | goesOn t => exact hk t
  | ends o => exact hf

theorem failsAtEnd_xferCommand (k : OpKind) (a b : Word) (s : State) : (xferCommand k a b s).FailsAtEnd := by
  intro u hu
  unfold xferCommand at hu
  split at hu
  · cases hu
    exact .inl rfl
  · split at hu <;> cases hu
    exact .inr ⟨rfl, by simp⟩

theorem failsAtEnd_xferFirst (s : State) : (xferFirst s).FailsAtEnd := by
  unfold xferFirst
  split
  · exact (failsAtEnd_xferCommand _ _ _ _).flowThen fun _ => failsAtEnd_xferCommand _ _ _ _
  · exact failsAtEnd_goesOn _

theorem failsAtEnd_xferRoll (s : State) : (xferRoll s).FailsAtEnd := by
  unfold xferRoll
  split
  · exact failsAtEnd_xferCommand _ _ _ _
  · exact failsAtEnd_goesOn _

theorem failsAtEnd_xferCopy (n : Nat) (s : State) : (xferCopy n s).FailsAtEnd := by
  induction n generalizing s with
  | zero => exact failsAtEnd_goesOn _
  | succ n ih =>
    unfold xferCopy
    split
    · split
      · exact ih _
      · rintro u ⟨⟩
      · rintro u ⟨⟩
    · exact failsAtEnd_goesOn _

theorem failsAtEnd_xferWriteBack (s : State) : (xferWriteBack s).FailsAtEnd := by
  unfold xferWriteBack
  split
  · exact (failsAtEnd_xferCommand _ _ _ _).flowThen fun _ => failsAtEnd_xferCommand _ _ _ _
  · exact failsAtEnd_goesOn _

theorem failsAtEnd_xferBlock (s : State) : (xferBlock s).FailsAtEnd := by
  unfold xferBlock
  split
  · refine (failsAtEnd_xferFirst s).flowThen fun _ => ?_
    refine (failsAtEnd_xferRoll _).flowThen fun _ => ?_
    refine (failsAtEnd_xferCommand _ _ _ _).flowThen fun _ => ?_
    refine (failsAtEnd_xferCopy _ _).flowThen fun _ => ?_
    exact (failsAtEnd_xferWriteBack _).flowThen fun _ => failsAtEnd_goesOn _
  · rintro u ⟨⟩
    exact .inr ⟨rfl, by simp⟩

/-- XFER ends with an error, or with OK. -/
theorem xferLoop_ends {n : Nat} {s u : State} (h : xferLoop n s = .next u) :
    Failed u ∨ u.phase = .idle ∧ u.result = .ok := by
  induction n generalizing s with
  | zero =>
    cases h
    exact .inr ⟨rfl, rfl⟩
  | succ n ih =>
    unfold xferLoop at h
    split at h
    · split at h
      · exact ih h
      · next o ho => exact .inl (failsAtEnd_xferBlock s u (h ▸ ho))
    · cases h
      exact .inr ⟨rfl, rfl⟩

/-- Settles O46: the start step, then the steps of the loop; and of the ends of XFER one is in FAULT and the others are in
IDLE. -/
theorem stepsAgreeWithXfer : Obligations.StepsAgreeWithXfer := by
  intro s address length hready hcap
  refine ⟨?_, ?_, fun dir u hu => ?_⟩
  · obtain ⟨k, hk, hrun⟩ := run_eq_xfer hready.2 .read address length
    exact ⟨_, k, exec_hostRead_of_ready hready hcap, hk, hrun⟩
  · obtain ⟨k, hk, hrun⟩ := run_eq_xfer hready.2 .write address length
    exact ⟨_, k, exec_hostWrite_of_ready hready hcap, hk, hrun⟩
  · rcases xferLoop_ends hu with (hfault | ⟨hidle, _⟩) | ⟨hidle, _⟩
    · exact .inr hfault
    · exact .inl hidle
    · exact .inl hidle

end Sys2Proof.Machine
end

section
/-! SUPPORT. One iteration of XFER in numbers, for a configuration of this hardware (43_io_sequencer.md R180 to R187): the
commands it issues, the bytes it moves and the registers it leaves. -/

namespace Sys2Proof.Machine

/-! ### Command words -/

/-- The word of a command by its kind and the values of its two parameters. -/
def commandWord (m : OpcMap) (k : OpKind) (a b : Nat) : Word :=
  fieldsWord (m.code k) (BitVec.ofNat 4 a) (BitVec.ofNat 22 b)

theorem encodeWord_eq_some_iff {m : OpcMap} {k : OpKind} {a b w : Word} :
    encodeWord m k a b = some w ↔ a.toNat < 16 ∧ b.toNat < 2 ^ 22 ∧ w = commandWord m k a.toNat b.toNat := by
  rw [commandWord, BitVec.ofNat_toNat, BitVec.ofNat_toNat]
  refine ⟨fun h => ?_, fun ⟨ha, hb, hw⟩ => hw ▸ encodeWord_of_fits m k ha hb⟩
  obtain ⟨ha, hb⟩ := fits_of_encodeWord h
  exact ⟨ha, hb, eq_fieldsWord_of_encodeWord h⟩

/-- A command of XFER whose parameters fit goes on, whatever the status (R175). -/
theorem xferCommand_of_fits {k : OpKind} {a b : Word} {s : State} (hc : s.cfg.checkStatusInLoop = false)
    (ha : a.toNat < 16) (hb : b.toNat < 2 ^ 22) :
    xferCommand k a b s = .goesOn (submit (commandWord s.cfg.opc k a.toNat b.toNat) (bufferArg k s) s) := by
  simp [xferCommand, encodeWord_eq_some_iff.2 ⟨ha, hb, rfl⟩, hc]

/-! ### Where an iteration goes -/

/-- The byte of the block an iteration starts at (R162). -/
def startCursor (s : State) : Nat := if s.first then s.byteOffset.toNat else 0

/-- The bytes an iteration moves: to the end of the block or of the transfer (R169). -/
def iterationBytes (s : State) : Nat := min (bytesLeft s) (256 - startCursor s)

/-- The drum an iteration reads from, the next one where the block register has passed the last block (R166). -/
def targetDrum (s : State) : Nat := if 256 ≤ s.block.toNat then s.drum.toNat + 1 else s.drum.toNat

/-- The block an iteration reads (R166). -/
def targetBlock (s : State) : Nat := if 256 ≤ s.block.toNat then 0 else s.block.toNat

/-- The seeks of the first iteration (R163, R164). -/
def firstSeekWords (s : State) : List Word :=
  if s.first then
    [commandWord s.cfg.opc .seekDrum s.drum.toNat 0, commandWord s.cfg.opc .seekBlock 0 s.block.toNat]
  else []

/-- The seek of a rollover (R166). -/
def rollSeekWords (s : State) : List Word :=
  if 256 ≤ s.block.toNat then [commandWord s.cfg.opc .seekDrum (s.drum.toNat + 1) 0] else []

/-- The commands for one block: DiskRead, and in WRITE the write-back (R182 to R184, R187). -/
def blockWords (op : HostOp) (m : OpcMap) (d b : Nat) : List Word :=
  commandWord m .diskRead d b ::
    if op = .write then [commandWord m .seekBlock 0 b, commandWord m .diskWrite d (b + 1)] else []

theorem rolloverDue_iff_of_specified {s : State} (hv : s.cfg.AsSpecified) :
    rolloverDue s = true ↔ 256 ≤ s.block.toNat := by
  obtain ⟨hthreshold, _, _⟩ := hv
  rw [rolloverDue_iff, hthreshold, blockSize]

/-- What no iteration changes of what the later ones read. -/
structure SameCall (s t : State) : Prop where
  cfg : t.cfg = s.cfg
  op : t.op = s.op
  length : t.length = s.length
  byteOffset : t.byteOffset = s.byteOffset
  hbFill : t.hbFill = s.hbFill

theorem SameCall.refl (s : State) : SameCall s s := ⟨rfl, rfl, rfl, rfl, rfl⟩

theorem SameCall.trans {s t u : State} (h : SameCall s t) (h' : SameCall t u) : SameCall s u where
  cfg := h'.cfg.trans h.cfg
  op := h'.op.trans h.op
  length := h'.length.trans h.length
  byteOffset := h'.byteOffset.trans h.byteOffset
  hbFill := h'.hbFill.trans h.hbFill

/-- `s` with the registers the seeks of an iteration write, and its history. -/
def withSought (drum : BitVec 17) (block : BitVec 22) (cursor : BitVec 9) (answers : List Answer)
    (trace : List Exchange) (s : State) : State :=
  { s with drum, block, cursor, answers, trace }

/-- From `s` to `t` the block has issued the commands of `seeks`, and changed no other register. -/
structure Sought (s t : State) (seeks : List Exchange) : Prop where
  rest : t = withSought t.drum t.block t.cursor t.answers t.trace s
  trace : t.trace = s.trace ++ seeks

theorem Sought.same {s t : State} {seeks : List Exchange} (h : Sought s t seeks) :
    SameCall s t ∧ t.hb = s.hb ∧ t.transferred = s.transferred := by
  rw [h.rest]
  exact ⟨⟨rfl, rfl, rfl, rfl, rfl⟩, rfl, rfl⟩

theorem Sought.trans {s t u : State} {xs ys : List Exchange} (h : Sought s t xs) (h' : Sought t u ys) :
    Sought s u (xs ++ ys) where
  rest := by
    rw [h'.rest, h.rest]
    rfl
  trace := by rw [h'.trace, h.trace, List.append_assoc]

/-- Two commands, the first without a buffer, are two exchanges. -/
theorem trace_of_two_submits (w w' : Word) (m : Option Memory) (s : State) :
    ∃ e e', (submit w' m (submit w none s)).trace = s.trace ++ [e, e'] ∧ e.word = w ∧ e'.word = w' ∧ e'.sent = m := by
  have htrace := submit_trace w' m (submit w none s)
  rw [submit_trace w none s, List.append_assoc, List.singleton_append] at htrace
  exact ⟨_, _, htrace, rfl, rfl, rfl⟩

/-- Step 2b of XFER: the seeks of the first iteration, and `cursor`. -/
theorem sought_of_xferFirst {s t : State} (hv : s.cfg.AsSpecified) (h : xferFirst s = .goesOn t) :
    ∃ seeks, Sought s t seeks ∧ seeks.map Exchange.word = firstSeekWords s ∧ t.drum = s.drum ∧ t.block = s.block ∧
      t.cursor.toNat = startCursor s ∧ (s.first = true → s.drum.toNat < 16) := by
  obtain ⟨_, _, hflag⟩ := hv
  rcases eq_of_xferFirst h with ⟨hi, w, w', hw, hw', rfl⟩ | ⟨hi, rfl⟩ <;> rw [isFirstIteration_flag hflag] at hi
  · obtain ⟨hd, _, hword⟩ := encodeWord_eq_some_iff.1 hw
    obtain ⟨_, _, hword'⟩ := encodeWord_eq_some_iff.1 hw'
    rw [drumParam_toNat] at hd hword
    rw [blockParam_toNat] at hword'
    obtain ⟨e, e', htrace, he, he', _⟩ := trace_of_two_submits w w' none (cursorAtOffset s)
    refine ⟨[e, e'], ⟨rfl, htrace⟩, ?_, rfl, rfl, ?_, fun _ => hd⟩
    · rw [firstSeekWords, if_pos hi, List.map_cons, List.map_singleton, he, he', hword, hword']
      rfl
    · rw [startCursor, if_pos hi]
      exact BitVec.toNat_setWidth_of_le (by decide)
  · have hno : ¬s.first = true := Bool.eq_false_iff.1 hi
    refine ⟨[], ⟨rfl, (List.append_nil _).symm⟩, ?_, rfl, rfl, ?_, fun hfirst => absurd hfirst hno⟩
    · rw [firstSeekWords, if_neg hno]
      rfl
    · rw [startCursor, if_neg hno]
      rfl

/-- Step 2c of XFER: the seek of a rollover, and the target. -/
theorem sought_of_xferRoll {s t : State} (hv : s.cfg.AsSpecified) (hd : s.drum.toNat < 65536)
    (h : xferRoll s = .goesOn t) :
    ∃ seeks, Sought s t seeks ∧ seeks.map Exchange.word = rollSeekWords s ∧ t.drum.toNat = targetDrum s ∧
      t.block.toNat = targetBlock s ∧ t.cursor = s.cursor := by
  have hdue := rolloverDue_iff_of_specified hv
  rcases eq_of_xferRoll h with ⟨hr, w, hw, rfl⟩ | ⟨hr, hts⟩
  · have hb := hdue.1 hr
    have hnew := rollOver_drum_toNat hd
    obtain ⟨_, _, hword⟩ := encodeWord_eq_some_iff.1 hw
    rw [drumParam_toNat, hnew] at hword
    refine ⟨_, ⟨rfl, submit_trace _ _ _⟩, ?_, ?_, ?_, rfl⟩
    · rw [rollSeekWords, if_pos hb]
      exact congrArg (fun w => [w]) hword
    · rw [targetDrum, if_pos hb]
      exact hnew
    · rw [targetBlock, if_pos hb]
      rfl
  · have hb : ¬256 ≤ s.block.toNat := fun hb => Bool.eq_false_iff.1 hr (hdue.2 hb)
    rw [hts, rollSeekWords, targetDrum, targetBlock, if_neg hb, if_neg hb, if_neg hb]
    exact ⟨[], ⟨rfl, (List.append_nil _).symm⟩, rfl, rfl, rfl, rfl⟩

/-! ### The inner loop -/

/-- The bytes the inner loop moves from where it stands. -/
def copyBytes (s : State) : Nat := min (bytesLeft s) (256 - s.cursor.toNat)

/-- The inner loop is over where it has moved all it can. -/
theorem copyBytes_of_not {s : State} (h : ¬(moreToMove s && roomInBlock s) = true) : copyBytes s = 0 := by
  rw [Bool.and_eq_true_iff, moreToMove_iff_bytesLeft, roomInBlock_iff] at h
  rw [copyBytes]
  omega

theorem transferred_of_copyByte {s t : State} (hm : moreToMove s = true) (h : copyByte s = .next t) :
    t.transferred.toNat = s.transferred.toNat + 1 := by
  have hless := (moreToMove_iff s).1 hm
  have hcount : t.transferred = s.transferred + 1 := by
    rcases copyByte_cases h with ⟨_, _, _, rfl⟩ | ⟨_, rfl⟩ | ⟨_, rfl⟩ <;> rfl
  rw [hcount]
  bv_omega

theorem cursor_toNat_of_copyByte {s t : State} (hr : roomInBlock s = true) (h : copyByte s = .next t) :
    t.cursor.toNat = s.cursor.toNat + 1 := by
  have hroom := (roomInBlock_iff s).1 hr
  rw [cursor_of_copyByte h]
  bv_omega

/-- What every byte moved adds to, the inner loop brings to the number of bytes it can move. -/
theorem xferCopy_reaches {P : Nat → State → Prop}
    (hstep : ∀ {k t}, P k t → moreToMove t = true → roomInBlock t = true → ∃ u, copyByte t = .next u ∧ P (k + 1) u)
    {n k : Nat} {s : State} (hs : P k s) (hn : 256 - s.cursor.toNat ≤ n) :
    ∃ t, xferCopy n s = .goesOn t ∧ P (k + copyBytes s) t := by
  induction n generalizing k s with
  | zero =>
    have hk : copyBytes s = 0 := by
      rw [copyBytes]
      omega
    exact ⟨s, rfl, hk ▸ hs⟩
  | succ n ih =>
    unfold xferCopy
    split
    · next hc =>
      obtain ⟨hm, hr⟩ := Bool.and_eq_true_iff.1 hc
      obtain ⟨u, hu, hP⟩ := hstep hs hm hr
      have hroom := (roomInBlock_iff s).1 hr
      have hleft := bytesLeft_of_copyByte hm hu
      have hcursor := cursor_toNat_of_copyByte hr hu
      have hcount : k + 1 + copyBytes u = k + copyBytes s := by
        rw [copyBytes, copyBytes]
        omega
      rw [hu, ← hcount]
      exact ih hP (by omega)
    · next hc => exact ⟨s, rfl, copyBytes_of_not hc ▸ hs⟩

/-- `s` with what the inner loop writes: a buffer and the two counters. -/
def withCopied (bb hb : Memory) (transferred : Word) (cursor : BitVec 9) (s : State) : State :=
  { s with bb, hb, transferred, cursor }

/-- In READ `k` bytes of BB, which holds `data`, have gone to HB since `s` (R169). -/
structure ReadCopied (data : BlockData) (s : State) (k : Nat) (t : State) : Prop where
  rest : t = withCopied (filledBuffer data) t.hb t.transferred t.cursor s
  moved : t.transferred.toNat = s.transferred.toNat + k
  cursor : t.cursor.toNat = s.cursor.toNat + k
  bytes : ∀ i, memRead t.hb i =
    if s.transferred.toNat ≤ i ∧ i < s.transferred.toNat + k then
      data.toList[s.cursor.toNat + (i - s.transferred.toNat)]?
    else memRead s.hb i

/-- In WRITE `k` bytes of HB have been merged into BB, which held `data`, since `s` (R169). -/
structure WriteCopied (data : BlockData) (s : State) (k : Nat) (data' : BlockData) (t : State) : Prop where
  rest : t = withCopied (filledBuffer data') s.hb t.transferred t.cursor s
  moved : t.transferred.toNat = s.transferred.toNat + k
  cursor : t.cursor.toNat = s.cursor.toNat + k
  bytes : ∀ p, p < 256 → data'.toList[p]? =
    if s.cursor.toNat ≤ p ∧ p < s.cursor.toNat + k then some (hostByte s (s.transferred.toNat + (p - s.cursor.toNat)))
    else data.toList[p]?

/-- A filled buffer reads as the block that filled it. -/
theorem memRead_filledBuffer_eq (data : BlockData) (p : Nat) : memRead (filledBuffer data) p = data.toList[p]? := by
  rw [filledBuffer, ← memRead_memOfBytes 0 p data.toList, Nat.zero_add]

/-- One byte of a filled buffer written: the buffer is that of another block. -/
theorem exists_block_of_memWrite (data : BlockData) {c : Nat} (hc : c < 256) (v : Byte) :
    ∃ data' : BlockData, memWrite (filledBuffer data) c v = filledBuffer data' ∧
      ∀ p, data'.toList[p]? = if p = c then some v else data.toList[p]? := by
  have hset := memWrite_filledBuffer data c v hc
  refine ⟨_, hset, fun p => ?_⟩
  rw [← memRead_filledBuffer_eq, ← memRead_filledBuffer_eq, ← hset, memRead_memWrite]

/-- Nothing is moved yet. -/
theorem readCopied_zero {data : BlockData} {s : State} (hbb : s.bb = filledBuffer data) : ReadCopied data s 0 s :=
  ⟨by rw [← hbb]; rfl, rfl, rfl, fun i => (if_neg (by omega)).symm⟩

theorem writeCopied_zero {data : BlockData} {s : State} (hbb : s.bb = filledBuffer data) :
    WriteCopied data s 0 data s :=
  ⟨by rw [← hbb]; rfl, rfl, rfl, fun p _ => (if_neg (by omega)).symm⟩

theorem ReadCopied.step {data : BlockData} {s t : State} {k : Nat} (hop : s.op = .read)
    (h : ReadCopied data s k t) (hm : moreToMove t = true) (hr : roomInBlock t = true) :
    ∃ u, copyByte t = .next u ∧ ReadCopied data s (k + 1) u := by
  obtain ⟨hrest, hmoved, hcursor, hbytes⟩ := h
  have hop' : t.op = .read := by rw [hrest]; exact hop
  have hbb : t.bb = filledBuffer data := by rw [hrest]; rfl
  have hv := memRead_filledBuffer data ((roomInBlock_iff t).1 hr)
  generalize data[t.cursor.toNat]'_ = v at hv
  have hcopy : copyByte t = .next (advance { t with hb := memWrite t.hb t.transferred.toNat v }) := by
    simp [copyByte, hop', hbb, hv]
  refine ⟨_, hcopy, ?_, ?_, ?_, fun i => ?_⟩
  · rw [hrest]
    rfl
  · rw [transferred_of_copyByte hm hcopy, hmoved, Nat.add_assoc]
  · rw [cursor_toNat_of_copyByte hr hcopy, hcursor, Nat.add_assoc]
  · change memRead (memWrite t.hb t.transferred.toNat v) i = _
    rw [memRead_filledBuffer_eq, hcursor] at hv
    rw [memRead_memWrite, hmoved, hbytes, ← hv]
    by_cases hi : i = s.transferred.toNat + k
    · rw [if_pos hi, if_pos (by omega), hi, Nat.add_sub_cancel_left]
    · rw [if_neg hi]
      exact if_congr (by omega) rfl rfl

theorem WriteCopied.step {data data' : BlockData} {s t : State} {k : Nat} (hop : s.op = .write)
    (h : WriteCopied data s k data' t) (hm : moreToMove t = true) (hr : roomInBlock t = true) :
    ∃ u, copyByte t = .next u ∧ ∃ data'', WriteCopied data s (k + 1) data'' u := by
  obtain ⟨hrest, hmoved, hcursor, hbytes⟩ := h
  have hop' : t.op = .write := by rw [hrest]; exact hop
  have hbb : t.bb = filledBuffer data' := by rw [hrest]; rfl
  have hbyte : hostByte t t.transferred.toNat = hostByte s (s.transferred.toNat + k) := by
    rw [hmoved, hrest]
    rfl
  obtain ⟨data'', hset, hbytes'⟩ :=
    exists_block_of_memWrite data' ((roomInBlock_iff t).1 hr) (hostByte t t.transferred.toNat)
  have hcopy : copyByte t = .next (advance { t with bb := filledBuffer data'' }) := by
    simp [copyByte, hop', hbb, hset]
  refine ⟨_, hcopy, data'', ?_, ?_, ?_, fun p hp => ?_⟩
  · rw [hrest]
    rfl
  · rw [transferred_of_copyByte hm hcopy, hmoved, Nat.add_assoc]
  · rw [cursor_toNat_of_copyByte hr hcopy, hcursor, Nat.add_assoc]
  · rw [hbytes', hbytes p hp, hcursor, hbyte]
    by_cases hi : p = s.cursor.toNat + k
    · rw [if_pos hi, if_pos (by omega), hi, Nat.add_sub_cancel_left]
    · rw [if_neg hi]
      exact if_congr (by omega) rfl rfl

/-- The inner loop of READ: as many bytes as it can move. -/
theorem readCopied_of_xferCopy {n : Nat} {s t : State} {data : BlockData} (hop : s.op = .read)
    (hbb : s.bb = filledBuffer data) (hn : 256 - s.cursor.toNat ≤ n) (h : xferCopy n s = .goesOn t) :
    ReadCopied data s (copyBytes s) t := by
  obtain ⟨u, hu, hcopied⟩ := xferCopy_reaches (P := fun k t => ReadCopied data s k t)
    (fun h hm hr => h.step hop hm hr) (readCopied_zero hbb) hn
  cases h.symm.trans hu
  rwa [Nat.zero_add] at hcopied

/-- The inner loop of WRITE: as many bytes as it can move. -/
theorem writeCopied_of_xferCopy {n : Nat} {s t : State} {data : BlockData} (hop : s.op = .write)
    (hbb : s.bb = filledBuffer data) (hn : 256 - s.cursor.toNat ≤ n) (h : xferCopy n s = .goesOn t) :
    ∃ data', WriteCopied data s (copyBytes s) data' t := by
  obtain ⟨u, hu, hcopied⟩ := xferCopy_reaches (P := fun k t => ∃ data', WriteCopied data s k data' t)
    (fun ⟨_, h⟩ hm hr => h.step hop hm hr) ⟨data, writeCopied_zero hbb⟩ hn
  cases h.symm.trans hu
  rwa [Nat.zero_add] at hcopied

/-! ### The whole iteration -/

/-- The seeks before the DiskRead. -/
theorem sought_of_seeks {s s1 s2 : State} (hv : s.cfg.Valid) (hr : inRange s = true) (h1 : xferFirst s = .goesOn s1)
    (h2 : xferRoll s1 = .goesOn s2) :
    ∃ seeks, Sought s s2 seeks ∧ seeks.map Exchange.word = firstSeekWords s ++ rollSeekWords s ∧
      s2.drum.toNat = targetDrum s ∧ s2.block.toNat = targetBlock s ∧ s2.cursor.toNat = startCursor s ∧
      (s.first = true → s.drum.toNat < 16) := by
  obtain ⟨⟨_, hmax, _⟩, hspec⟩ := hv
  have hd := ((inRange_iff s).1 hr).1
  obtain ⟨xs, hxs, hwords, hdrum, hblock, hcursor, hfits⟩ := sought_of_xferFirst hspec h1
  have hcfg : s1.cfg = s.cfg := by rw [hxs.rest]; rfl
  obtain ⟨ys, hys, hwords', hdrum', hblock', hcursor'⟩ :=
    sought_of_xferRoll (hcfg ▸ hspec) (by rw [hdrum]; omega) h2
  rw [targetDrum, hdrum, hblock] at hdrum'
  rw [targetBlock, hblock] at hblock'
  rw [rollSeekWords, hdrum, hblock, hcfg] at hwords'
  refine ⟨xs ++ ys, hxs.trans hys, ?_, hdrum', hblock', by rw [hcursor', hcursor], hfits⟩
  rw [List.map_append, hwords, hwords']
  rfl

/-- From the start of an iteration `s` to the inner loop in `m`: the seeks are done, and BB holds what the DiskRead `er`
delivered. -/
structure AtCopy (s m : State) (seeks : List Exchange) (er : Exchange) (data : BlockData) : Prop where
  same : SameCall s m
  hb : m.hb = s.hb
  transferred : m.transferred = s.transferred
  bb : m.bb = filledBuffer data
  drum : m.drum.toNat = targetDrum s
  block : m.block.toNat = targetBlock s + 1
  cursor : m.cursor.toNat = startCursor s
  trace : m.trace = s.trace ++ (seeks ++ [er])
  seekWords : seeks.map Exchange.word = firstSeekWords s ++ rollSeekWords s
  word : er.word = commandWord s.cfg.opc .diskRead (targetDrum s) (targetBlock s)
  delivered : er.returned = some data
  drumFits : targetDrum s < 16
  firstDrumFits : s.first = true → s.drum.toNat < 16

theorem targetBlock_lt (s : State) : targetBlock s < 256 := by
  unfold targetBlock
  split <;> omega

theorem atCopy_of_parts {s s1 s2 s3 : State} (hv : s.cfg.Valid) (hr : inRange s = true)
    (h1 : xferFirst s = .goesOn s1) (h2 : xferRoll s1 = .goesOn s2)
    (h3 : xferCommand .diskRead (drumParam s2) (blockParam s2) s2 = .goesOn s3) :
    ∃ seeks er data, AtCopy s (nextBlock s3) seeks er data := by
  obtain ⟨seeks, hsought, hseeks, hdrum, hblock, hcursor, hfirst⟩ := sought_of_seeks hv hr h1 h2
  obtain ⟨hsame, hhb, hmoved⟩ := hsought.same
  obtain ⟨w, hw, rfl⟩ := eq_submit_of_xferCommand h3
  obtain ⟨hfits, _, hword⟩ := encodeWord_eq_some_iff.1 hw
  rw [drumParam_toNat, hdrum] at hfits hword
  rw [blockParam_toNat, hblock, hsame.cfg] at hword
  let answer := nextAnswer w (some s2.bb) s2
  refine ⟨seeks, ⟨w, some s2.bb, answer.status, some answer.buffer⟩, answer.buffer, { hsame with }, hhb, hmoved, rfl,
    hdrum, ?_, hcursor, ?_, hseeks, hword, rfl, hfits, hfirst⟩
  · have htarget := targetBlock_lt s
    rw [nextBlock_block_toNat (hblock ▸ htarget), submit_block, hblock]
  · rw [nextBlock_trace, submit_trace, hsought.trace, List.append_assoc]
    rfl

/-- `s` with what the write-back writes: BB and the history. -/
def withBacked (bb : Memory) (answers : List Answer) (trace : List Exchange) (s : State) : State :=
  { s with bb, answers, trace }

/-- Step 2g of XFER: nothing in READ; in WRITE the seek one block back and the DiskWrite of BB (R171, R172). -/
theorem exchanges_of_xferWriteBack {s t : State} (hb : 1 ≤ s.block.toNat) (h : xferWriteBack s = .goesOn t) :
    ∃ back, t = withBacked t.bb t.answers t.trace s ∧ t.trace = s.trace ++ back ∧
      (back.map Exchange.word = if s.op = .write then
        [commandWord s.cfg.opc .seekBlock 0 (s.block.toNat - 1),
         commandWord s.cfg.opc .diskWrite s.drum.toNat s.block.toNat] else []) ∧
      (s.op = .write → ∃ eb ew, back = [eb, ew] ∧ ew.sent = some s.bb) := by
  rcases eq_of_xferWriteBack h with ⟨hop, w, w', hw, hw', rfl⟩ | ⟨hop, rfl⟩
  · obtain ⟨_, _, hword⟩ := encodeWord_eq_some_iff.1 hw
    obtain ⟨_, _, hword'⟩ := encodeWord_eq_some_iff.1 hw'
    have hprevious : (s.block - 1).toNat = s.block.toNat - 1 := by bv_omega
    rw [previousBlockParam_toNat, hprevious] at hword
    rw [drumParam_toNat, blockParam_toNat] at hword'
    obtain ⟨eb, ew, htrace, heb, hew, hsent⟩ := trace_of_two_submits w w' (some s.bb) s
    refine ⟨[eb, ew], rfl, htrace, ?_, fun _ => ⟨eb, ew, rfl, hsent⟩⟩
    rw [if_pos hop, List.map_cons, List.map_singleton, heb, hew, hword, hword']
    rfl
  · exact ⟨[], rfl, (List.append_nil _).symm, (if_neg hop).symm, fun h => absurd h hop⟩

/-- The bytes READ has in HB after an iteration from `s` that moved them from `data`. -/
def ReadBytes (s : State) (data : BlockData) (hb : Memory) : Prop :=
  ∀ i, memRead hb i =
    if s.transferred.toNat ≤ i ∧ i < s.transferred.toNat + iterationBytes s then
      data.toList[startCursor s + (i - s.transferred.toNat)]?
    else memRead s.hb i

/-- The block WRITE has made of `data` after an iteration from `s` that merged the bytes of HB in. -/
def MergedBytes (s : State) (data data' : BlockData) : Prop :=
  ∀ p, p < 256 → data'.toList[p]? =
    if startCursor s ≤ p ∧ p < startCursor s + iterationBytes s then
      some (hostByte s (s.transferred.toNat + (p - startCursor s)))
    else data.toList[p]?

/-- One iteration from `s` to `t`: the seeks, the DiskRead `er` that delivered `data`, and the write-back `back`. -/
structure Iteration (s t : State) (seeks : List Exchange) (er : Exchange) (data : BlockData) (back : List Exchange) :
    Prop where
  same : SameCall s t
  first : t.first = false
  drum : t.drum.toNat = targetDrum s
  block : t.block.toNat = targetBlock s + 1
  moved : t.transferred.toNat = s.transferred.toNat + iterationBytes s
  trace : t.trace = s.trace ++ (seeks ++ er :: back)
  seekWords : seeks.map Exchange.word = firstSeekWords s ++ rollSeekWords s
  words : (er :: back).map Exchange.word = blockWords s.op s.cfg.opc (targetDrum s) (targetBlock s)
  delivered : er.returned = some data
  drumFits : targetDrum s < 16
  firstDrumFits : s.first = true → s.drum.toNat < 16
  read : s.op = .read → ReadBytes s data t.hb
  write : s.op = .write → t.hb = s.hb ∧ ∃ eb ew data', back = [eb, ew] ∧ ew.sent = some (filledBuffer data') ∧
    MergedBytes s data data'

/-- The end of an iteration, from what the inner loop has left in BB and HB. -/
theorem AtCopy.iteration {s m t : State} {seeks : List Exchange} {er : Exchange} {data : BlockData} {bb hb : Memory}
    {transferred : Word} {cursor : BitVec 9} (hm : AtCopy s m seeks er data)
    (hmoved : transferred.toNat = m.transferred.toNat + iterationBytes s)
    (hread : s.op = .read → ReadBytes s data hb)
    (hwrite : s.op = .write → hb = s.hb ∧ ∃ data', bb = filledBuffer data' ∧ MergedBytes s data data')
    (h : xferWriteBack (withCopied bb hb transferred cursor m) = .goesOn t) :
    ∃ back, Iteration s (clearFirst t) seeks er data back := by
  have hblock : (withCopied bb hb transferred cursor m).block.toNat = targetBlock s + 1 := hm.block
  have hdrum : (withCopied bb hb transferred cursor m).drum.toNat = targetDrum s := hm.drum
  have hop : (withCopied bb hb transferred cursor m).op = s.op := hm.same.op
  have hcfg : (withCopied bb hb transferred cursor m).cfg = s.cfg := hm.same.cfg
  obtain ⟨back, hbacked, htrace, hback, hsent⟩ := exchanges_of_xferWriteBack (by omega) h
  rw [hblock, hdrum, hop, hcfg, Nat.add_sub_cancel] at hback
  rw [hop] at hsent
  obtain ⟨bb', answers, trace, rfl⟩ : ∃ bb' answers trace,
      t = withBacked bb' answers trace (withCopied bb hb transferred cursor m) := ⟨_, _, _, hbacked⟩
  refine ⟨back, {
    same := hm.same.trans ⟨rfl, rfl, rfl, rfl, rfl⟩
    first := rfl
    drum := hm.drum
    block := hm.block
    moved := hm.transferred ▸ hmoved
    trace := ?_
    seekWords := hm.seekWords
    words := by rw [List.map_cons, hm.word, hback, blockWords]
    delivered := hm.delivered
    drumFits := hm.drumFits
    firstDrumFits := hm.firstDrumFits
    read := hread
    write := fun hw => ?_ }⟩
  · have hcopied : (withCopied bb hb transferred cursor m).trace = m.trace := rfl
    rw [clearFirst_trace, htrace, hcopied, hm.trace, List.append_assoc, List.append_assoc, List.singleton_append]
  · obtain ⟨hhb, data', hbb, hmerged⟩ := hwrite hw
    obtain ⟨eb, ew, hpair, hew⟩ := hsent hw
    exact ⟨hhb, eb, ew, data', hpair, hew.trans (congrArg some hbb), hmerged⟩

/-- An iteration that goes on, in a configuration of this hardware. -/
theorem iteration_of_xferBlock {s t : State} (hv : s.cfg.Valid) (hop : s.op = .read ∨ s.op = .write)
    (h : xferBlock s = .goesOn t) : ∃ seeks er data back, Iteration s t seeks er data back := by
  obtain ⟨hr, s1, s2, s3, s4, s5, h1, h2, h3, h4, h5, rfl⟩ := parts_of_xferBlock h
  obtain ⟨seeks, er, data, hm⟩ := atCopy_of_parts hv hr h1 h2 h3
  generalize nextBlock s3 = m at h4 hm
  have hcount : copyBytes m = iterationBytes s := by
    rw [copyBytes, bytesLeft, hm.same.length, hm.transferred, hm.cursor, iterationBytes, bytesLeft]
  have hmop := hm.same.op
  refine ⟨seeks, er, data, ?_⟩
  rcases hop with hop | hop
  · obtain ⟨hrest, hmoved, _, hbytes⟩ := readCopied_of_xferCopy (hmop.trans hop) hm.bb (Nat.sub_le _ _) h4
    rw [hrest] at h5
    rw [hcount] at hmoved hbytes
    rw [hm.transferred, hm.cursor, hm.hb] at hbytes
    exact hm.iteration hmoved (fun _ => hbytes) (fun hw => by simp [hop] at hw) h5
  · obtain ⟨data', hrest, hmoved, _, hbytes⟩ := writeCopied_of_xferCopy (hmop.trans hop) hm.bb (Nat.sub_le _ _) h4
    rw [hrest] at h5
    rw [hcount] at hmoved hbytes
    rw [hm.transferred, hm.cursor] at hbytes
    refine hm.iteration hmoved (fun hw => by simp [hop] at hw) (fun _ => ⟨hm.hb, data', rfl, ?_⟩) h5
    intro p hp
    rw [hbytes p hp, hostByte_congr hm.hb hm.same.hbFill]

/-! ### An iteration that goes on -/

theorem bufferFull_of_copyByte {s t : State} (h : copyByte s = .next t) (hbb : bufferFull s.bb) : bufferFull t.bb := by
  rcases copyByte_cases h with ⟨_, _, _, rfl⟩ | ⟨_, rfl⟩ | ⟨_, rfl⟩
  · exact hbb
  · exact bufferFull_memWrite _ _ hbb
  · exact hbb

/-- With BB whole the inner loop does not stop, and it leaves the drum and the configuration alone. -/
theorem xferCopy_goesOn {n : Nat} {s : State} (hbb : bufferFull s.bb) (hn : 256 - s.cursor.toNat ≤ n) :
    ∃ t, xferCopy n s = .goesOn t ∧ t.drum = s.drum ∧ t.cfg = s.cfg := by
  obtain ⟨t, ht, _, hkept⟩ := xferCopy_reaches
    (P := fun _ t => bufferFull t.bb ∧ t.drum = s.drum ∧ t.cfg = s.cfg) (k := 0) (n := n) (s := s)
    (fun {k t} ⟨hfull, hdrum, hcfg⟩ _ hr => by
      obtain ⟨u, hu⟩ := copyByte_next hfull ((roomInBlock_iff t).1 hr)
      refine ⟨u, hu, bufferFull_of_copyByte hu hfull, ?_⟩
      rcases copyByte_cases hu with ⟨_, _, _, rfl⟩ | ⟨_, rfl⟩ | ⟨_, rfl⟩ <;> exact ⟨hdrum, hcfg⟩)
    ⟨hbb, rfl, rfl⟩ hn
  exact ⟨t, ht, hkept⟩

theorem xferFirst_goesOn {s : State} (hc : s.cfg.checkStatusInLoop = false) (hd : s.drum.toNat < 16) :
    ∃ t, xferFirst s = .goesOn t := by
  unfold xferFirst
  split
  · have hdrum : (drumParam s).toNat < 16 := (drumParam_toNat s).symm ▸ hd
    rw [xferCommand_of_fits (s := cursorAtOffset s) hc hdrum (by decide), flowThen_goesOn]
    exact ⟨_, xferCommand_of_fits hc (by decide) (blockParam_fits _)⟩
  · exact ⟨_, rfl⟩

theorem xferWriteBack_goesOn {s : State} (hc : s.cfg.checkStatusInLoop = false) (hd : s.drum.toNat < 16) :
    ∃ t, xferWriteBack s = .goesOn t := by
  have hdrum : (drumParam s).toNat < 16 := (drumParam_toNat s).symm ▸ hd
  unfold xferWriteBack
  split
  · rw [xferCommand_of_fits hc (by decide) (previousBlockParam_fits s), flowThen_goesOn]
    exact ⟨_, xferCommand_of_fits hc hdrum (blockParam_fits _)⟩
  · exact ⟨_, rfl⟩

/-- In range, below block 256 and in a drum that fits ParamA, every command has a word and the iteration goes on. -/
theorem xferBlock_goesOn {s : State} (hv : s.cfg.AsSpecified) (hr : inRange s = true) (hd : s.drum.toNat < 16)
    (hb : s.block.toNat < 256) : ∃ t, xferBlock s = .goesOn t := by
  have ⟨_, hc, _⟩ := hv
  obtain ⟨s1, h1⟩ := xferFirst_goesOn hc hd
  obtain ⟨_, hsought, _, hdrum, hblock, _, _⟩ := sought_of_xferFirst hv h1
  have hcfg := hsought.same.1.cfg
  have hno : ¬rolloverDue s1 = true := by
    rw [rolloverDue_iff_of_specified (hcfg.symm ▸ hv), hblock]
    omega
  have h2 : xferRoll s1 = .goesOn s1 := if_neg hno
  have hc1 : s1.cfg.checkStatusInLoop = false := hcfg.symm ▸ hc
  have hd1 : s1.drum.toNat < 16 := hdrum.symm ▸ hd
  have h3 := xferCommand_of_fits (k := .diskRead) hc1 ((drumParam_toNat s1).symm ▸ hd1) (blockParam_fits s1)
  generalize commandWord s1.cfg.opc .diskRead (drumParam s1).toNat (blockParam s1).toNat = w at h3
  obtain ⟨s4, h4, hdrum4, hcfg4⟩ :=
    xferCopy_goesOn (s := nextBlock (submit w (bufferArg .diskRead s1) s1)) (bufferFull_submit_diskRead w s1)
      (Nat.sub_le blockSize _)
  obtain ⟨s5, h5⟩ := xferWriteBack_goesOn (s := s4) (hcfg4.symm ▸ hc1) (hdrum4.symm ▸ hd1)
  simp only [xferBlock, if_pos hr, h1, h2, h3, h4, h5, flowThen_goesOn]
  exact ⟨_, rfl⟩

/-! ### The outer loop -/

theorem xferLoop_succ_of_goesOn {n : Nat} {s t : State} (hm : moreToMove s = true) (h : xferBlock s = .goesOn t) :
    xferLoop (n + 1) s = xferLoop n t := by
  simp only [xferLoop, if_pos hm, h]

theorem xferLoop_succ_of_ends {n : Nat} {s : State} {o : Host.Outcome State Fault Refusal} (hm : moreToMove s = true)
    (h : xferBlock s = .ends o) : xferLoop (n + 1) s = o := by
  simp only [xferLoop, if_pos hm, h]

/-- With nothing left to move the transfer ends with OK (R160). -/
theorem xferLoop_of_not_moreToMove (n : Nat) {s : State} (hm : ¬moreToMove s = true) :
    xferLoop n s = .next (endOperation .ok s) := by
  cases n with
  | zero => rfl
  | succ n => simp only [xferLoop, if_neg hm]

end Sys2Proof.Machine
end

section
/-! PROOF. O47, O48 and O51: a transfer within one drum (43_io_sequencer.md R180 to R185). After `j` blocks the registers,
the trace and the buffers are known in numbers; a transfer ends after its last block, or at the end of the drum. -/

namespace Sys2Proof.Machine

/-! ### After `j` blocks -/

/-- A transfer at its first loop test, at byte `o0` of block `b0` of drum `d0`. -/
structure StartsAt (s : State) (d0 b0 o0 : Nat) : Prop where
  valid : s.cfg.Valid
  op : s.op = .read ∨ s.op = .write
  first : s.first = true
  drum : s.drum.toNat = d0
  block : s.block.toNat = b0
  offset : s.byteOffset.toNat = o0
  transferred : s.transferred.toNat = 0

theorem startsAt_startTransfer {s : State} (hv : s.cfg.Valid) {dir : HostOp} (hdir : dir = .read ∨ dir = .write)
    (address length : Word) :
    StartsAt (startTransfer dir address length s) (address.toNat / 2 ^ 16) (address.toNat / 2 ^ 8 % 2 ^ 8)
      (address.toNat % 2 ^ 8) where
  valid := hv
  op := hdir
  first := rfl
  drum := startTransfer_drum_toNat dir address length s
  block := startTransfer_block_toNat dir address length s
  offset := offsetOf_toNat address
  transferred := rfl

/-- The words of a transfer's first `j` blocks, if there are any: the two seeks and the commands of each block (R182 to
R184). -/
def walkWords (op : HostOp) (m : OpcMap) (d0 b0 j : Nat) : List Word :=
  commandWord m .seekDrum d0 0 :: commandWord m .seekBlock 0 b0 ::
    (List.range j).flatMap fun i => blockWords op m d0 (b0 + i)

/-- READ has the bytes of the blocks read so far in HB, from the exchanges `es`, and has changed no other byte. -/
def ReadWalked (s t : State) (o0 : Nat) (es : List Exchange) : Prop :=
  (∀ i, i < t.transferred.toNat → ∃ e data, es[2 + (o0 + i) / 256]? = some e ∧ e.returned = some data ∧
    memRead t.hb i = data.toList[(o0 + i) % 256]?) ∧
  ∀ i, t.transferred.toNat ≤ i → memRead t.hb i = memRead s.hb i

/-- WRITE has sent each of `j` blocks out as its DiskRead delivered it with the bytes of HB merged in (R184). -/
def WriteWalked (s t : State) (o0 j : Nat) (es : List Exchange) : Prop :=
  t.hb = s.hb ∧ ∀ i, i < j → ∃ er ew data m, es[2 + 3 * i]? = some er ∧ er.returned = some data ∧
    es[2 + 3 * i + 2]? = some ew ∧ ew.sent = some m ∧ ∀ p, p < 256 → memRead m p =
      if o0 ≤ 256 * i + p ∧ 256 * i + p < o0 + s.length.toNat then some (hostByte s (256 * i + p - o0))
      else data.toList[p]?

/-- From `s` to `t` a transfer that started at `d0`, `b0`, `o0` has worked through `j` blocks, with the exchanges `es`. -/
structure Walked (s t : State) (d0 b0 o0 j : Nat) (es : List Exchange) : Prop where
  same : SameCall s t
  first : t.first = true ↔ j = 0
  drum : t.drum.toNat = d0
  block : t.block.toNat = b0 + j
  moved : t.transferred.toNat = min s.length.toNat (256 * j - o0)
  trace : t.trace = s.trace ++ es
  words : es.map Exchange.word = if j = 0 then [] else walkWords s.op s.cfg.opc d0 b0 j
  read : s.op = .read → ReadWalked s t o0 es
  write : s.op = .write → WriteWalked s t o0 j es

theorem walked_zero {s : State} {d0 b0 o0 : Nat} (h : StartsAt s d0 b0 o0) : Walked s s d0 b0 o0 0 [] where
  same := .refl s
  first := iff_of_true h.first rfl
  drum := h.drum
  block := h.block
  moved := by rw [h.transferred]; omega
  trace := (List.append_nil _).symm
  words := rfl
  read := fun _ => ⟨fun i hi => absurd (h.transferred ▸ hi) (Nat.not_lt_zero i), fun _ _ => rfl⟩
  write := fun _ => ⟨rfl, fun i hi => absurd hi (Nat.not_lt_zero i)⟩

/-! ### One block more -/

theorem getElem?_append_of_eq_some {l l' : List Exchange} {k : Nat} {e : Exchange} (h : l[k]? = some e) :
    (l ++ l')[k]? = some e := by
  obtain ⟨hk, _⟩ := List.getElem?_eq_some_iff.1 h
  rw [List.getElem?_append_left hk, h]

theorem length_walkWords (op : HostOp) (m : OpcMap) (d0 b0 j : Nat) :
    (walkWords op m d0 b0 j).length = 2 + if op = .write then 3 * j else j := by
  unfold walkWords blockWords
  split <;> simp [List.length_flatMap] <;> omega

section
variable {s t u : State} {d0 b0 o0 j : Nat} {es seeks back : List Exchange} {er : Exchange} {data : BlockData}

theorem startCursor_of_walked (hs : StartsAt s d0 b0 o0) (hw : Walked s t d0 b0 o0 j es) :
    startCursor t = if j = 0 then o0 else 0 := by
  rw [startCursor, hw.same.byteOffset, hs.offset]
  exact if_congr hw.first rfl rfl

theorem target_of_walked (hw : Walked s t d0 b0 o0 j es) (hb : b0 + j < 256) :
    targetDrum t = d0 ∧ targetBlock t = b0 + j := by
  have hlow : ¬256 ≤ t.block.toNat := by
    rw [hw.block]
    omega
  rw [targetDrum, targetBlock, if_neg hlow, if_neg hlow]
  exact ⟨hw.drum, hw.block⟩

/-- The bytes of the next block, from where its copy starts: to the end of the block or of the transfer. -/
theorem iterationBytes_of_walked (hw : Walked s t d0 b0 o0 j es) :
    iterationBytes t = min (s.length.toNat - t.transferred.toNat) (256 - startCursor t) := by
  rw [iterationBytes, bytesLeft, hw.same.length]

theorem moved_of_block (hs : StartsAt s d0 b0 o0) (hw : Walked s t d0 b0 o0 j es) (hi : Iteration t u seeks er data back)
    (ho : o0 < 256) (hmore : 256 * j < o0 + s.length.toNat) :
    u.transferred.toNat = min s.length.toNat (256 * (j + 1) - o0) := by
  rw [hi.moved, iterationBytes_of_walked hw, startCursor_of_walked hs hw, hw.moved]
  split <;> omega

/-- The seeks come before the first block only, so up to the DiskRead of any block the words are the same. -/
theorem words_before_block (hw : Walked s t d0 b0 o0 j es) (hi : Iteration t u seeks er data back) (hb : b0 + j < 256) :
    (es ++ seeks).map Exchange.word = walkWords s.op s.cfg.opc d0 b0 j := by
  have hroll : rollSeekWords t = [] := if_neg (by rw [hw.block]; omega)
  rw [List.map_append, hw.words, hi.seekWords, hroll, List.append_nil, firstSeekWords, hw.same.cfg, hw.drum, hw.block]
  by_cases hj : j = 0
  · rw [if_pos hj, if_pos (hw.first.2 hj), hj]
    rfl
  · rw [if_neg hj, if_neg (hj ∘ hw.first.1), List.append_nil]

theorem words_of_block (hw : Walked s t d0 b0 o0 j es) (hi : Iteration t u seeks er data back) (hb : b0 + j < 256) :
    (es ++ seeks ++ er :: back).map Exchange.word = walkWords s.op s.cfg.opc d0 b0 (j + 1) := by
  obtain ⟨hdrum, hblock⟩ := target_of_walked hw hb
  rw [List.map_append, words_before_block hw hi hb, hi.words, hw.same.op, hw.same.cfg, hdrum, hblock, walkWords,
    walkWords, List.range_succ, List.flatMap_append, List.flatMap_singleton, List.cons_append, List.cons_append]

/-- The DiskRead of the next block comes right after the exchanges before it. -/
theorem getElem?_read_of_block (hw : Walked s t d0 b0 o0 j es) (hi : Iteration t u seeks er data back)
    (hb : b0 + j < 256) :
    (es ++ seeks).length = 2 + (if s.op = .write then 3 * j else j) ∧
      ∀ k, (es ++ seeks ++ er :: back)[(es ++ seeks).length + k]? = (er :: back)[k]? := by
  have hlength := congrArg List.length (words_before_block hw hi hb)
  rw [List.length_map, length_walkWords] at hlength
  exact ⟨hlength, fun k => by rw [List.getElem?_append_right (Nat.le_add_right _ _), Nat.add_sub_cancel_left]⟩

theorem readWalked_of_block (hs : StartsAt s d0 b0 o0) (hw : Walked s t d0 b0 o0 j es)
    (hi : Iteration t u seeks er data back) (hb : b0 + j < 256) (ho : o0 < 256)
    (hmore : 256 * j < o0 + s.length.toNat) (hop : s.op = .read) :
    ReadWalked s u o0 (es ++ seeks ++ er :: back) := by
  obtain ⟨hbefore, hframe⟩ := hw.read hop
  obtain ⟨hlength, hat⟩ := getElem?_read_of_block hw hi hb
  have hread := hi.read (hw.same.op.trans hop)
  have hT := hw.moved
  have hcount := iterationBytes_of_walked hw
  have hcursor := startCursor_of_walked hs hw
  rw [if_neg (by simp [hop])] at hlength
  refine ⟨fun i hlt => ?_, fun i hge => ?_⟩
  · rw [hi.moved] at hlt
    by_cases hold : i < t.transferred.toNat
    · obtain ⟨e, data', he, hdata, hbyte⟩ := hbefore i hold
      refine ⟨e, data', getElem?_append_of_eq_some (getElem?_append_of_eq_some he), hdata, ?_⟩
      rw [hread i, if_neg (by omega), hbyte]
    · have hblock : (o0 + i) / 256 = j := by
        split at hcursor <;> omega
      have hbyte : startCursor t + (i - t.transferred.toNat) = (o0 + i) % 256 := by
        split at hcursor <;> omega
      have her := hat 0
      rw [hlength, Nat.add_zero] at her
      refine ⟨er, data, hblock.symm ▸ her, hi.delivered, ?_⟩
      rw [hread i, if_pos ⟨by omega, hlt⟩, hbyte]
  · rw [hi.moved] at hge
    rw [hread i, if_neg (by omega), hframe i (by omega)]

theorem writeWalked_of_block (hs : StartsAt s d0 b0 o0) (hw : Walked s t d0 b0 o0 j es)
    (hi : Iteration t u seeks er data back) (hb : b0 + j < 256) (ho : o0 < 256)
    (hmore : 256 * j < o0 + s.length.toNat) (hop : s.op = .write) :
    WriteWalked s u o0 (j + 1) (es ++ seeks ++ er :: back) := by
  obtain ⟨hhb, hbefore⟩ := hw.write hop
  obtain ⟨hlength, hat⟩ := getElem?_read_of_block hw hi hb
  obtain ⟨hhb', eb, ew, data', rfl, hsent, hmerged⟩ := hi.write (hw.same.op.trans hop)
  have hT := hw.moved
  have hcount := iterationBytes_of_walked hw
  have hcursor := startCursor_of_walked hs hw
  rw [if_pos hop] at hlength
  rw [hlength] at hat
  refine ⟨hhb'.trans hhb, fun i hlt => ?_⟩
  by_cases hold : i < j
  · obtain ⟨er', ew', old, m, her, hdelivered, hew, hm, hbytes⟩ := hbefore i hold
    exact ⟨er', ew', old, m, getElem?_append_of_eq_some (getElem?_append_of_eq_some her), hdelivered,
      getElem?_append_of_eq_some (getElem?_append_of_eq_some hew), hm, hbytes⟩
  · have hij : i = j := by omega
    subst hij
    refine ⟨er, ew, data, filledBuffer data', hat 0, hi.delivered, hat 2, hsent, fun p hp => ?_⟩
    rw [memRead_filledBuffer_eq, hmerged p hp, hostByte_congr hhb hw.same.hbFill]
    have hrange : startCursor t ≤ p ∧ p < startCursor t + iterationBytes t ↔
        o0 ≤ 256 * i + p ∧ 256 * i + p < o0 + s.length.toNat := by
      split at hcursor <;> omega
    have hindex (hin : o0 ≤ 256 * i + p) : t.transferred.toNat + (p - startCursor t) = 256 * i + p - o0 := by
      split at hcursor <;> omega
    by_cases hin : o0 ≤ 256 * i + p ∧ 256 * i + p < o0 + s.length.toNat
    · rw [if_pos (hrange.2 hin), if_pos hin, hindex hin.1]
    · rw [if_neg (hin ∘ hrange.1), if_neg hin]

theorem walked_succ (hs : StartsAt s d0 b0 o0) (hw : Walked s t d0 b0 o0 j es)
    (hi : Iteration t u seeks er data back) (hb : b0 + j < 256) (ho : o0 < 256)
    (hmore : 256 * j < o0 + s.length.toNat) : Walked s u d0 b0 o0 (j + 1) (es ++ seeks ++ er :: back) := by
  obtain ⟨hdrum, hblock⟩ := target_of_walked hw hb
  exact {
    same := hw.same.trans hi.same
    first := by simp [hi.first]
    drum := hi.drum.trans hdrum
    block := by rw [hi.block, hblock, Nat.add_assoc]
    moved := moved_of_block hs hw hi ho hmore
    trace := by rw [hi.trace, hw.trace, List.append_assoc, List.append_assoc]
    words := by rw [if_neg (Nat.succ_ne_zero j), words_of_block hw hi hb]
    read := readWalked_of_block hs hw hi hb ho hmore
    write := writeWalked_of_block hs hw hi hb ho hmore }

end

/-! ### The walk -/

theorem StartsAt.offset_lt {s : State} {d0 b0 o0 : Nat} (hs : StartsAt s d0 b0 o0) : o0 < 256 :=
  hs.offset ▸ s.byteOffset.isLt

/-- Bytes are left after `j` blocks that do not reach the end of the transfer. -/
theorem moreToMove_of_walked {s t : State} {d0 b0 o0 j : Nat} {es : List Exchange} (hw : Walked s t d0 b0 o0 j es)
    (hpos : 0 < s.length.toNat) (hmore : 256 * j < o0 + s.length.toNat) : moreToMove t = true := by
  rw [moreToMove_iff, hw.moved, hw.same.length]
  omega

/-- A transfer that starts in range gets through its first `k` blocks, if they are in range and it needs them all. -/
theorem exists_walked {s : State} {d0 b0 o0 k : Nat} (hs : StartsAt s d0 b0 o0) (hpos : 0 < s.length.toNat)
    (hdrum : d0 < s.cfg.maxDrumCount) (hfits : d0 < 16) (hblocks : b0 + k ≤ 256)
    (hvalid : b0 + k ≤ s.cfg.maxBlockId + 1) (hneeded : 256 * k < o0 + s.length.toNat + 256) :
    ∃ t es, Walked s t d0 b0 o0 k es ∧ ∀ n, xferLoop (k + n) s = xferLoop n t := by
  induction k with
  | zero => exact ⟨s, [], walked_zero hs, fun n => by rw [Nat.zero_add]⟩
  | succ j ih =>
    obtain ⟨t, es, hw, hloop⟩ := ih (by omega) (by omega) (by omega)
    have hmore : 256 * j < o0 + s.length.toNat := by omega
    have hm := moreToMove_of_walked hw hpos hmore
    have hv : t.cfg.Valid := hw.same.cfg.symm ▸ hs.valid
    have hr : inRange t = true := by
      rw [inRange_iff, hw.drum, hw.block, hw.same.cfg]
      omega
    obtain ⟨u, hu⟩ := xferBlock_goesOn hv.2 hr (hw.drum.symm ▸ hfits) (by rw [hw.block]; omega)
    obtain ⟨seeks, er, data, back, hi⟩ := iteration_of_xferBlock hv (hw.same.op.symm ▸ hs.op) hu
    refine ⟨u, _, walked_succ hs hw hi (by omega) hs.offset_lt hmore, fun n => ?_⟩
    rw [Nat.add_right_comm j 1 n, Nat.add_assoc, hloop, xferLoop_succ_of_goesOn hm hu]

/-- A transfer that fits its drum ends with OK after its last block. -/
theorem exists_end_of_fitting {s : State} {d0 b0 o0 n : Nat} (hs : StartsAt s d0 b0 o0) (hpos : 1 ≤ s.length.toNat)
    (hn : n = (o0 + s.length.toNat + 255) / 256) (hdrum : d0 < s.cfg.maxDrumCount) (hfits : d0 < 16)
    (hblocks : b0 + n ≤ 256) (hvalid : b0 + n ≤ s.cfg.maxBlockId + 1) :
    ∃ t es, Walked s t d0 b0 o0 n es ∧ t.transferred.toNat = s.length.toNat ∧
      xferLoop s.length.toNat s = .next (endOperation .ok t) := by
  have ho := hs.offset_lt
  obtain ⟨t, es, hw, hloop⟩ := exists_walked hs hpos hdrum hfits hblocks hvalid (by omega)
  have hmoved : t.transferred.toNat = s.length.toNat := by
    rw [hw.moved]
    omega
  have hdone : ¬moreToMove t = true := by
    rw [moreToMove_iff, hmoved, hw.same.length]
    omega
  have hfuel : n + (s.length.toNat - n) = s.length.toNat := by omega
  refine ⟨t, es, hw, hmoved, ?_⟩
  rw [← hfuel, hloop, xferLoop_of_not_moreToMove _ hdone]

/-- The range check comes before any command of an iteration (R161). -/
theorem xferBlock_of_not_inRange {s : State} (hr : inRange s = false) :
    xferBlock s = .ends (.next (endOperation .addressOutOfRange s)) :=
  if_neg (Bool.eq_false_iff.1 hr)

/-- With MAX_BLOCK_ID below the threshold, a transfer that needs more than the rest of its drum ends after the last valid
block, at the next range check (R185). -/
theorem exists_end_at_end_of_drum {s : State} {d0 b0 o0 k : Nat} (hs : StartsAt s d0 b0 o0)
    (hsmall : s.cfg.maxBlockId < 256) (hdrum : d0 < s.cfg.maxDrumCount) (hfits : d0 < 16)
    (hblock : b0 ≤ s.cfg.maxBlockId) (hk : k = s.cfg.maxBlockId + 1 - b0) (hneeds : 256 * k - o0 < s.length.toNat) :
    ∃ t es, Walked s t d0 b0 o0 k es ∧ t.transferred.toNat = 256 * k - o0 ∧
      xferLoop s.length.toNat s = .next (endOperation .addressOutOfRange t) := by
  have ho := hs.offset_lt
  obtain ⟨t, es, hw, hloop⟩ := exists_walked (k := k) hs (by omega) hdrum hfits (by omega) (by omega) (by omega)
  have hmoved : t.transferred.toNat = 256 * k - o0 := by
    rw [hw.moved]
    omega
  have hmore := moreToMove_of_walked hw (by omega) (by omega)
  have hout : inRange t = false := by
    rw [not_inRange_iff, hw.drum, hw.block, hw.same.cfg]
    omega
  have hfuel : k + (s.length.toNat - k - 1 + 1) = s.length.toNat := by omega
  refine ⟨t, es, hw, hmoved, ?_⟩
  rw [← hfuel, hloop, xferLoop_succ_of_ends hmore (xferBlock_of_not_inRange hout)]

/-! ### The statements -/

theorem Walked.words_of_pos {s t : State} {d0 b0 o0 j : Nat} {es : List Exchange} (h : Walked s t d0 b0 o0 j es)
    (hj : 0 < j) : es.map Exchange.word = walkWords s.op s.cfg.opc d0 b0 j :=
  h.words.trans (if_neg (Nat.ne_of_gt hj))

theorem walkWords_read (m : OpcMap) (d0 b0 n : Nat) :
    walkWords .read m d0 b0 n =
      fieldsWord m.seekDrum (BitVec.ofNat 4 d0) 0 :: fieldsWord m.seekBlock 0 (BitVec.ofNat 22 b0) ::
        (List.range n).map (fun j => fieldsWord m.diskRead (BitVec.ofNat 4 d0) (BitVec.ofNat 22 (b0 + j))) := by
  rw [List.map_eq_flatMap]
  rfl

theorem walkWords_write (m : OpcMap) (d0 b0 n : Nat) :
    walkWords .write m d0 b0 n =
      fieldsWord m.seekDrum (BitVec.ofNat 4 d0) 0 :: fieldsWord m.seekBlock 0 (BitVec.ofNat 22 b0) ::
        (List.range n).flatMap (fun j =>
          [fieldsWord m.diskRead (BitVec.ofNat 4 d0) (BitVec.ofNat 22 (b0 + j)),
           fieldsWord m.seekBlock 0 (BitVec.ofNat 22 (b0 + j)),
           fieldsWord m.diskWrite (BitVec.ofNat 4 d0) (BitVec.ofNat 22 (b0 + j + 1))]) := rfl

/-- Settles O47: the walk through the `n` blocks, at whose end nothing is left to move. -/
theorem readWalksTheBlocks : Obligations.ReadWalksTheBlocks := by
  rintro s address length d0 b0 o0 n hv hready hcap hpos rfl rfl rfl hn hdrum hfits hblocks hvalid
  have hs := startsAt_startTransfer hv (.inl rfl : HostOp.read = .read ∨ _) address length
  obtain ⟨t, es, hw, hmoved, hend⟩ := exists_end_of_fitting hs hpos hn hdrum hfits hblocks hvalid
  obtain ⟨k, _, hrun⟩ := run_eq_xfer hready.2 .read address length
  obtain ⟨hbytes, hframe⟩ := hw.read rfl
  rw [hmoved] at hbytes hframe
  exact ⟨_, k, _, es, exec_hostRead_of_ready hready hcap, hrun.trans hend, rfl, rfl, hw.trace,
    (hw.words_of_pos (by omega)).trans (walkWords_read _ _ _ _), hbytes, hframe⟩

/-- Settles O48: the same walk in WRITE. -/
theorem writeMergesEveryBlock : Obligations.WriteMergesEveryBlock := by
  rintro s address length d0 b0 o0 n hv hready hcap hpos rfl rfl rfl hn hdrum hfits hblocks hvalid
  have hs := startsAt_startTransfer hv (.inr rfl : HostOp.write = .read ∨ _) address length
  obtain ⟨t, es, hw, _, hend⟩ := exists_end_of_fitting hs hpos hn hdrum hfits hblocks hvalid
  obtain ⟨k, _, hrun⟩ := run_eq_xfer hready.2 .write address length
  obtain ⟨hhb, hmerged⟩ := hw.write rfl
  exact ⟨_, k, _, es, exec_hostWrite_of_ready hready hcap, hrun.trans hend, rfl, rfl, hhb, hw.trace,
    (hw.words_of_pos (by omega)).trans (walkWords_write _ _ _ _), hmerged⟩

/-- Settles O51: the walk through the blocks left in the drum, after which the range check fails. -/
theorem transferStopsAtTheEndOfADrum : Obligations.TransferStopsAtTheEndOfADrum := by
  rintro s address length d0 b0 o0 k hv _ hsmall rfl rfl rfl hdrum hfits hblock hk hneeds _
  have hlast : address.toNat / 2 ^ 8 % 2 ^ 8 + k = s.cfg.maxBlockId + 1 := by omega
  constructor
  · have hs := startsAt_startTransfer hv (.inl rfl : HostOp.read = .read ∨ _) address length
    obtain ⟨t, es, hw, hmoved, hend⟩ := exists_end_at_end_of_drum hs hsmall hdrum hfits hblock hk hneeds
    obtain ⟨hbytes, hframe⟩ := hw.read rfl
    rw [hmoved] at hbytes hframe
    exact ⟨_, es, hend, rfl, rfl, hmoved, hw.drum, hw.block.trans hlast, hw.trace,
      (hw.words_of_pos (by omega)).trans (walkWords_read _ _ _ _), hbytes, hframe⟩
  · have hs := startsAt_startTransfer hv (.inr rfl : HostOp.write = .read ∨ _) address length
    obtain ⟨t, es, hw, hmoved, hend⟩ := exists_end_at_end_of_drum hs hsmall hdrum hfits hblock hk hneeds
    obtain ⟨hhb, hmerged⟩ := hw.write rfl
    refine ⟨_, es, hend, rfl, rfl, hmoved, hw.drum, hw.block.trans hlast, hhb, hw.trace,
      (hw.words_of_pos (by omega)).trans (walkWords_write _ _ _ _), fun j hj => ?_⟩
    obtain ⟨er, ew, data, m, her, hdata, hew, hm, hbytes⟩ := hmerged j hj
    refine ⟨er, ew, data, m, her, hdata, hew, hm, fun p hp => (hbytes p hp).trans ?_⟩
    exact if_congr (and_iff_left (show 256 * j + p < _ + length.toNat by omega)) rfl rfl

end Sys2Proof.Machine
end

section
/-! PROOF. O52 and O53: a transfer with a device that meets DA1 to DA6 (44_device_primitive.md R206), every command
succeeding. At every DiskRead the device's position is the target of the iteration, so what an iteration reads and writes
is the stored block at the linear address of its bytes (20_memory.md R51). -/

namespace Sys2Proof.Machine

/-! ### One command of the device -/

theorem decodeCmd_commandWord {m : OpcMap} (hm : m.Injective) (k : OpKind) (a b : Nat) :
    decodeCmd m (commandWord m k a b) = some (k, BitVec.ofNat 4 a, BitVec.ofNat 22 b) := by
  have hdecode := decodeCmd_of_encodeWord hm (encodeWord_of_fields m k (BitVec.ofNat 4 a) (BitVec.ofNat 22 b))
  rwa [BitVec.setWidth_setWidth_of_le _ (by decide), BitVec.setWidth_setWidth_of_le _ (by decide), BitVec.setWidth_eq,
    BitVec.setWidth_eq] at hdecode

section
variable {m : OpcMap} (hm : m.Injective) {v v' : Volume} {e : Exchange} {a b : Nat} (h : Volume.meets m v e v')
  (hok : statusFailed e.status = false)
include hm h hok

/-- DA5. -/
theorem meets_seekDrum (hw : e.word = commandWord m .seekDrum a b) (ha : a < 16) :
    v'.drum = a ∧ v'.block = 0 ∧ v'.store = v.store := by
  have hmeets := h hok
  rw [hw, decodeCmd_commandWord hm] at hmeets
  dsimp only at hmeets
  rwa [BitVec.toNat_ofNat, Nat.mod_eq_of_lt ha] at hmeets

/-- DA1. -/
theorem meets_seekBlock (hw : e.word = commandWord m .seekBlock a b) (hb : b < 2 ^ 22) :
    v'.drum = v.drum ∧ v'.block = b ∧ v'.store = v.store := by
  have hmeets := h hok
  rw [hw, decodeCmd_commandWord hm] at hmeets
  dsimp only at hmeets
  rwa [BitVec.toNat_ofNat, Nat.mod_eq_of_lt hb] at hmeets

/-- DA2 and DA3. -/
theorem meets_diskRead (hw : e.word = commandWord m .diskRead a b) :
    e.returned = some (v.store v.drum v.block) ∧ v'.drum = v.drum ∧ v'.block = v.block + 1 ∧ v'.store = v.store := by
  have hmeets := h hok
  rwa [hw, decodeCmd_commandWord hm] at hmeets

/-- DA3, DA4 and DA6. -/
theorem meets_diskWrite (hw : e.word = commandWord m .diskWrite a b) {data : BlockData}
    (hsent : e.sent = some (filledBuffer data)) :
    v'.store v.drum v.block = data ∧ (∀ d b, (d, b) ≠ (v.drum, v.block) → v'.store d b = v.store d b) ∧
      v'.drum = v.drum ∧ v'.block = v.block + 1 := by
  have hmeets := h hok
  rw [hw, decodeCmd_commandWord hm] at hmeets
  obtain ⟨hstored, hrest⟩ := hmeets
  exact ⟨hstored data hsent, hrest⟩

end

/-! ### A run of commands -/

theorem serves_append (m : OpcMap) (v v' : Volume) (es es' : List Exchange) :
    Volume.serves m v (es ++ es') v' ↔ ∃ u, Volume.serves m v es u ∧ Volume.serves m u es' v' := by
  induction es generalizing v with
  | nil => simp [Volume.serves]
  | cons e es ih =>
    simp only [List.cons_append, Volume.serves, ih]
    constructor
    · rintro ⟨u, hu, w, hw, hw'⟩
      exact ⟨w, ⟨u, hu, hw⟩, hw'⟩
    · rintro ⟨w, ⟨u, hu, hw⟩, hw'⟩
      exact ⟨u, hu, w, hw, hw'⟩

theorem allSucceeded_append {es es' : List Exchange} :
    allSucceeded (es ++ es') ↔ allSucceeded es ∧ allSucceeded es' := by
  simp only [allSucceeded, List.forall_mem_append]

theorem allSucceeded_cons {e : Exchange} {es : List Exchange} :
    allSucceeded (e :: es) ↔ statusFailed e.status = false ∧ allSucceeded es := by
  simp only [allSucceeded, List.forall_mem_cons]

theorem serves_cons (m : OpcMap) (v v' : Volume) (e : Exchange) (es : List Exchange) :
    Volume.serves m v (e :: es) v' ↔ ∃ u, Volume.meets m v e u ∧ Volume.serves m u es v' := Iff.rfl

theorem serves_singleton (m : OpcMap) (v v' : Volume) (e : Exchange) :
    Volume.serves m v [e] v' ↔ Volume.meets m v e v' := by
  simp [Volume.serves]

/-- The seeks of the first iteration bring the device to the registers' position, where it is already in a later one. -/
theorem serves_firstSeeks {s : State} (hm : s.cfg.opc.Injective) {xs : List Exchange} {v v' : Volume}
    (hwords : xs.map Exchange.word = firstSeekWords s) (hfits : s.first = true → s.drum.toNat < 16)
    (hat : s.first = false → v.drum = s.drum.toNat ∧ v.block = s.block.toNat)
    (hserves : Volume.serves s.cfg.opc v xs v') (hok : allSucceeded xs) :
    v'.drum = s.drum.toNat ∧ v'.block = s.block.toNat ∧ v'.store = v.store := by
  unfold firstSeekWords at hwords
  split at hwords
  · next hfirst =>
    obtain ⟨ed, ys, rfl, hed, hys⟩ := List.map_eq_cons_iff.1 hwords
    obtain ⟨eb, rfl, heb⟩ := List.map_eq_singleton_iff.1 hys
    obtain ⟨u, hdrum, hblock⟩ := (serves_cons _ _ _ _ _).1 hserves
    obtain ⟨hedok, hebok⟩ := allSucceeded_cons.1 hok
    obtain ⟨hd, _, hstore⟩ := meets_seekDrum hm hdrum hedok hed (hfits hfirst)
    obtain ⟨hd', hb', hstore'⟩ :=
      meets_seekBlock hm ((serves_singleton _ _ _ _).1 hblock) (allSucceeded_cons.1 hebok).1 heb s.block.isLt
    exact ⟨hd'.trans hd, hb', hstore'.trans hstore⟩
  · next hlater =>
    obtain rfl := List.map_eq_nil_iff.1 hwords
    obtain rfl : v = v' := hserves
    obtain ⟨hd, hb⟩ := hat (Bool.eq_false_iff.2 hlater)
    exact ⟨hd, hb, rfl⟩

/-- The seek of a rollover homes the device at block 0 of the next drum; without one it stands at the target. -/
theorem serves_rollSeeks {s : State} (hm : s.cfg.opc.Injective) {ys : List Exchange} {v v' : Volume}
    (hwords : ys.map Exchange.word = rollSeekWords s) (hfits : targetDrum s < 16)
    (hat : v.drum = s.drum.toNat ∧ v.block = s.block.toNat)
    (hserves : Volume.serves s.cfg.opc v ys v') (hok : allSucceeded ys) :
    v'.drum = targetDrum s ∧ v'.block = targetBlock s ∧ v'.store = v.store := by
  unfold targetDrum targetBlock at *
  unfold rollSeekWords at hwords
  split at hwords
  · next hroll =>
    rw [if_pos hroll] at hfits ⊢
    rw [if_pos hroll]
    obtain ⟨e, rfl, he⟩ := List.map_eq_singleton_iff.1 hwords
    exact meets_seekDrum hm ((serves_singleton _ _ _ _).1 hserves) (allSucceeded_cons.1 hok).1 he hfits
  · next hno =>
    rw [if_neg hno, if_neg hno]
    obtain rfl := List.map_eq_nil_iff.1 hwords
    obtain rfl : v = v' := hserves
    exact ⟨hat.1, hat.2, rfl⟩

/-! ### One iteration of the device -/

section
variable {s t : State} {seeks back : List Exchange} {er : Exchange} {data : BlockData} {v v' : Volume}

/-- Up to and with the DiskRead, the device has come to the target and delivered its stored block. -/
theorem Iteration.serves_read (hm : s.cfg.opc.Injective) (hi : Iteration s t seeks er data back)
    (hat : s.first = false → v.drum = s.drum.toNat ∧ v.block = s.block.toNat)
    (hserves : Volume.serves s.cfg.opc v (seeks ++ er :: back) v') (hok : allSucceeded (seeks ++ er :: back)) :
    ∃ u, u.drum = targetDrum s ∧ u.block = targetBlock s + 1 ∧ u.store = v.store ∧
      data = v.store (targetDrum s) (targetBlock s) ∧ Volume.serves s.cfg.opc u back v' ∧ allSucceeded back := by
  obtain ⟨u2, hseeks, hblock⟩ := (serves_append _ _ _ _ _).1 hserves
  obtain ⟨hseeksok, hblockok⟩ := allSucceeded_append.1 hok
  obtain ⟨xs, ys, rfl, hxs, hys⟩ := List.map_eq_append_iff.1 hi.seekWords
  obtain ⟨u1, hfirst, hroll⟩ := (serves_append _ _ _ _ _).1 hseeks
  obtain ⟨hfirstok, hrollok⟩ := allSucceeded_append.1 hseeksok
  obtain ⟨hd1, hb1, hstore1⟩ := serves_firstSeeks hm hxs hi.firstDrumFits hat hfirst hfirstok
  obtain ⟨hd2, hb2, hstore2⟩ := serves_rollSeeks hm hys hi.drumFits ⟨hd1, hb1⟩ hroll hrollok
  obtain ⟨u3, hread, hback⟩ := (serves_cons _ _ _ _ _).1 hblock
  obtain ⟨hreadok, hbackok⟩ := allSucceeded_cons.1 hblockok
  obtain ⟨hword, _⟩ := List.cons_eq_cons.1 (List.map_cons ▸ hi.words)
  obtain ⟨hdata, hd3, hb3, hstore3⟩ := meets_diskRead hm hread hreadok hword
  rw [hi.delivered, Option.some.injEq, hd2, hb2, hstore2, hstore1] at hdata
  exact ⟨u3, hd3.trans hd2, by rw [hb3, hb2], by rw [hstore3, hstore2, hstore1], hdata, hback, hbackok⟩

/-- READ leaves the device one block further, its store as it was, and the target's bytes in HB. -/
theorem Iteration.device_read (hm : s.cfg.opc.Injective) (hi : Iteration s t seeks er data back) (hop : s.op = .read)
    (hat : s.first = false → v.drum = s.drum.toNat ∧ v.block = s.block.toNat)
    (hserves : Volume.serves s.cfg.opc v (seeks ++ er :: back) v') (hok : allSucceeded (seeks ++ er :: back)) :
    v'.drum = t.drum.toNat ∧ v'.block = t.block.toNat ∧ v'.store = v.store ∧
      ReadBytes s (v.store (targetDrum s) (targetBlock s)) t.hb := by
  obtain ⟨u, hd, hb, hstore, hdata, hback, _⟩ := hi.serves_read hm hat hserves hok
  have hwords := hi.words
  rw [List.map_cons, blockWords, if_neg (by simp [hop])] at hwords
  obtain rfl := List.map_eq_nil_iff.1 (List.cons_eq_cons.1 hwords).2
  obtain rfl : u = v' := hback
  exact ⟨hd.trans hi.drum.symm, hb.trans hi.block.symm, hstore, hdata ▸ hi.read hop⟩

/-- WRITE leaves the device one block further, with the merged block stored at the target and no other block changed. -/
theorem Iteration.device_write (hm : s.cfg.opc.Injective) (hi : Iteration s t seeks er data back) (hop : s.op = .write)
    (hat : s.first = false → v.drum = s.drum.toNat ∧ v.block = s.block.toNat)
    (hserves : Volume.serves s.cfg.opc v (seeks ++ er :: back) v') (hok : allSucceeded (seeks ++ er :: back)) :
    v'.drum = t.drum.toNat ∧ v'.block = t.block.toNat ∧ t.hb = s.hb ∧
      MergedBytes s (v.store (targetDrum s) (targetBlock s)) (v'.store (targetDrum s) (targetBlock s)) ∧
      ∀ d b, (d, b) ≠ (targetDrum s, targetBlock s) → v'.store d b = v.store d b := by
  obtain ⟨u, hd, _, hstore, hdata, hback, hbackok⟩ := hi.serves_read hm hat hserves hok
  obtain ⟨hhb, eb, ew, data', rfl, hsent, hmerged⟩ := hi.write hop
  have hwords := hi.words
  rw [List.map_cons, blockWords, if_pos hop, List.map_cons, List.map_singleton, List.cons_eq_cons, List.cons_eq_cons,
    List.cons_eq_cons] at hwords
  obtain ⟨_, heb, hew, _⟩ := hwords
  obtain ⟨u', hseek, hwrite⟩ := (serves_cons _ _ _ _ _).1 hback
  obtain ⟨hebok, hewok⟩ := allSucceeded_cons.1 hbackok
  have hlow : targetBlock s < 2 ^ 22 := Nat.lt_trans (targetBlock_lt s) (by decide)
  obtain ⟨hd', hb', hstore'⟩ := meets_seekBlock hm hseek hebok heb hlow
  obtain ⟨hstored, hothers, hd'', hb''⟩ :=
    meets_diskWrite hm ((serves_singleton _ _ _ _).1 hwrite) (allSucceeded_cons.1 hewok).1 hew hsent
  rw [hd', hd, hb'] at hstored hothers
  rw [hstore', hstore] at hothers
  exact ⟨by rw [hd'', hd', hd, hi.drum], by rw [hb'', hb', hi.block], hhb, by rw [hstored, ← hdata]; exact hmerged,
    hothers⟩

end

/-! ### Linear addresses -/

/-- The linear address of byte `p` of a block (20_memory.md R51). -/
def linear (d b p : Nat) : Nat := d * 2 ^ 16 + b * 2 ^ 8 + p

/-- Between iterations of a transfer that started at the linear address `address`: the registers hold the address of the
next byte, and after the first iteration the device stands at the registers' position. -/
structure OnTrack (address : Nat) (t : State) (v : Volume) : Prop where
  movedWithinLength : t.transferred.toNat ≤ t.length.toNat
  blockBound : t.block.toNat ≤ 256
  next : moreToMove t = true → address + t.transferred.toNat = linear t.drum.toNat t.block.toNat (startCursor t)
  device : t.first = false → v.drum = t.drum.toNat ∧ v.block = t.block.toNat

theorem startCursor_lt (s : State) : startCursor s < 256 := by
  unfold startCursor
  split
  · exact s.byteOffset.isLt
  · decide

/-- The target of an iteration is where the next byte is: rollover leaves the linear address alone (R192). -/
theorem OnTrack.next_target {address : Nat} {t : State} {v : Volume} (h : OnTrack address t v)
    (hm : moreToMove t = true) :
    address + t.transferred.toNat = linear (targetDrum t) (targetBlock t) (startCursor t) := by
  have hb := h.blockBound
  rw [h.next hm, targetDrum, targetBlock, linear, linear]
  split <;> omega

theorem onTrack_of_iteration {address : Nat} {s t : State} {seeks back : List Exchange} {er : Exchange}
    {data : BlockData} {v v' : Volume} (h : OnTrack address s v) (hm : moreToMove s = true)
    (hi : Iteration s t seeks er data back) (hat : v'.drum = t.drum.toNat ∧ v'.block = t.block.toNat) :
    OnTrack address t v' := by
  have hnext := h.next_target hm
  have hlow := targetBlock_lt s
  have hcursor := startCursor_lt s
  have hless := (moreToMove_iff s).1 hm
  have hmoved := hi.moved
  rw [iterationBytes, bytesLeft] at hmoved
  rw [linear] at hnext
  refine ⟨?_, ?_, fun hmore => ?_, fun _ => hat⟩
  · rw [hi.same.length]
    omega
  · rw [hi.block]
    omega
  · have hzero : startCursor t = 0 := if_neg (by simp [hi.first])
    rw [moreToMove_iff, hi.same.length] at hmore
    rw [hi.drum, hi.block, hzero, linear]
    omega

theorem onTrack_startTransfer (dir : HostOp) (address length : Word) (s : State) (v : Volume) :
    OnTrack address.toNat (startTransfer dir address length s) v where
  movedWithinLength := Nat.zero_le _
  blockBound := by
    rw [startTransfer_block_toNat]
    omega
  next _ := by
    have hoffset : startCursor (startTransfer dir address length s) = address.toNat % 2 ^ 8 := offsetOf_toNat address
    have hmoved : (startTransfer dir address length s).transferred.toNat = 0 := rfl
    rw [startTransfer_drum_toNat, startTransfer_block_toNat, hoffset, hmoved, linear]
    omega
  device := fun h => nomatch h

/-! ### A transfer that ends with OK -/

/-- What every iteration keeps holds where a transfer ends with OK, and there nothing is left to move. -/
theorem exists_end_of_ok {P : State → Prop}
    (hstep : ∀ {s t}, P s → moreToMove s = true → xferBlock s = .goesOn t → P t) {n : Nat} {s u : State} (hs : P s)
    (hn : bytesLeft s ≤ n) (hu : xferLoop n s = .next u) (hphase : u.phase = .idle) (hresult : u.result = .ok) :
    ∃ t, P t ∧ moreToMove t = false ∧ u = endOperation .ok t := by
  induction n generalizing s with
  | zero =>
    have hdone : moreToMove s = false := by
      rw [Bool.eq_false_iff, ne_eq, moreToMove_iff_bytesLeft]
      omega
    exact ⟨s, hs, hdone, (Host.Outcome.next.inj hu).symm⟩
  | succ n ih =>
    unfold xferLoop at hu
    split at hu
    · next hm =>
      split at hu
      · next t ht =>
        have hless := bytesLeft_of_xferBlock hm ht
        exact ih (hstep hs hm ht) (by omega) hu
      · next o ho =>
        rcases failsAtEnd_xferBlock s u (hu ▸ ho) with hfault | ⟨_, hne⟩
        · simp [hphase] at hfault
        · exact absurd hresult hne
    · next hm => exact ⟨s, hs, Bool.eq_false_iff.2 hm, (Host.Outcome.next.inj hu).symm⟩

/-- From `s` to `t` a transfer has gone on with a device that started as `v`: wherever the exchanges so far leave the
device, it is on track, and `Stored` holds of the block and the device. -/
def Served (address : Nat) (s : State) (v : Volume) (Stored : State → Volume → Prop) (t : State) : Prop :=
  SameCall s t ∧ ∃ es, t.trace = s.trace ++ es ∧
    ∀ w, Volume.serves s.cfg.opc v es w → allSucceeded es → OnTrack address t w ∧ Stored t w

/-- `Stored` is kept by an iteration that the device serves, which also leaves the device at the registers' position. -/
structure KeptByIterations (address : Nat) (s : State) (Stored : State → Volume → Prop) : Prop where
  iteration : ∀ {t u : State} {seeks back : List Exchange} {er : Exchange} {data : BlockData} {w w' : Volume},
    SameCall s t → moreToMove t = true → OnTrack address t w → Stored t w → Iteration t u seeks er data back →
    Volume.serves t.cfg.opc w (seeks ++ er :: back) w' → allSucceeded (seeks ++ er :: back) →
    (w'.drum = u.drum.toNat ∧ w'.block = u.block.toNat) ∧ Stored u w'

theorem served_step {address : Nat} {s t u : State} {v : Volume} {Stored : State → Volume → Prop} (hv : s.cfg.Valid)
    (hop : s.op = .read ∨ s.op = .write) (hkept : KeptByIterations address s Stored)
    (h : Served address s v Stored t) (hm : moreToMove t = true) (hu : xferBlock t = .goesOn u) :
    Served address s v Stored u := by
  obtain ⟨hsame, es, htrace, hserved⟩ := h
  obtain ⟨seeks, er, data, back, hi⟩ := iteration_of_xferBlock (hsame.cfg.symm ▸ hv) (hsame.op.symm ▸ hop) hu
  refine ⟨hsame.trans hi.same, es ++ (seeks ++ er :: back), by rw [hi.trace, htrace, List.append_assoc],
    fun w' hserves hok => ?_⟩
  obtain ⟨w, hbefore, hblock⟩ := (serves_append _ _ _ _ _).1 hserves
  obtain ⟨hokbefore, hokblock⟩ := allSucceeded_append.1 hok
  obtain ⟨htrack, hstored⟩ := hserved w hbefore hokbefore
  obtain ⟨hat, hstored'⟩ := hkept.iteration hsame hm htrack hstored hi (hsame.cfg.symm ▸ hblock) hokblock
  exact ⟨onTrack_of_iteration htrack hm hi hat, hstored'⟩

/-- Where a transfer ends with OK, `Stored` holds of its last state, and every byte is moved. -/
theorem stored_at_end {s u : State} {dir : HostOp} {address length : Word} {es : List Exchange} {v v' : Volume}
    {Stored : State → Volume → Prop} (hv : s.cfg.Valid) (hdir : dir = .read ∨ dir = .write)
    (hstart : Stored (startTransfer dir address length s) v)
    (hkept : KeptByIterations address.toNat (startTransfer dir address length s) Stored)
    (hu : xfer dir address length s = .next u) (hphase : u.phase = .idle) (hresult : u.result = .ok)
    (htrace : u.trace = s.trace ++ es) (hserves : Volume.serves s.cfg.opc v es v') (hok : allSucceeded es) :
    ∃ t, u = endOperation .ok t ∧ Stored t v' ∧ t.transferred.toNat = length.toNat := by
  have hserved : Served address.toNat (startTransfer dir address length s) v Stored
      (startTransfer dir address length s) := by
    refine ⟨.refl _, [], (List.append_nil _).symm, ?_⟩
    rintro w rfl _
    exact ⟨onTrack_startTransfer dir address length s v, hstart⟩
  obtain ⟨t, ⟨hsame, es', htrace', hall⟩, hdone, rfl⟩ :=
    exists_end_of_ok (served_step (s := startTransfer dir address length s) hv hdir hkept) hserved (Nat.le_refl _) hu hphase
      hresult
  obtain rfl : es = es' := List.append_cancel_left (htrace.symm.trans htrace')
  obtain ⟨htrack, hstored⟩ := hall v' hserves hok
  have hmoved := htrack.movedWithinLength
  have hlength : t.length = length := hsame.length
  rw [not_moreToMove_iff, hlength] at hdone
  rw [hlength] at hmoved
  exact ⟨t, rfl, hstored, Nat.le_antisymm hmoved hdone⟩

/-! ### READ -/

/-- The stored byte at a linear address. -/
def storedByte (v : Volume) (a : Nat) : Option Byte :=
  (v.store (a / 2 ^ 16) (a / 2 ^ 8 % 2 ^ 8)).toList[a % 2 ^ 8]?

theorem storedByte_linear (v : Volume) {d b p : Nat} (hb : b < 256) (hp : p < 256) :
    storedByte v (linear d b p) = (v.store d b).toList[p]? := by
  have hdrum : linear d b p / 2 ^ 16 = d := by rw [linear]; omega
  have hblock : linear d b p / 2 ^ 8 % 2 ^ 8 = b := by rw [linear]; omega
  have hbyte : linear d b p % 2 ^ 8 = p := by rw [linear]; omega
  rw [storedByte, hdrum, hblock, hbyte]

/-- The bytes moved so far are in HB, and the store is as it was. -/
def ReadStored (address : Nat) (v : Volume) (t : State) (w : Volume) : Prop :=
  w.store = v.store ∧ ∀ i, i < t.transferred.toNat → memRead t.hb i = storedByte v (address + i)

theorem readStored_kept {address : Nat} {s : State} (hm : s.cfg.opc.Injective) (hop : s.op = .read) (v : Volume) :
    KeptByIterations address s (ReadStored address v) := by
  refine ⟨fun {t u seeks back er data w w'} hsame hmore htrack hstored hi hserves hok => ?_⟩
  obtain ⟨hstore, hbytes⟩ := hstored
  obtain ⟨hd, hb, hstore', hread⟩ :=
    hi.device_read (hsame.cfg.symm ▸ hm) (hsame.op.trans hop) htrack.device hserves hok
  refine ⟨⟨hd, hb⟩, hstore'.trans hstore, fun i hlt => ?_⟩
  rw [hi.moved] at hlt
  by_cases hold : i < t.transferred.toNat
  · rw [hread i, if_neg (by omega), hbytes i hold]
  · have hnext := htrack.next_target hmore
    have hroom : startCursor t + (i - t.transferred.toNat) < 256 := by
      rw [iterationBytes] at hlt
      omega
    have haddress : address + i =
        linear (targetDrum t) (targetBlock t) (startCursor t + (i - t.transferred.toNat)) := by
      rw [linear] at hnext ⊢
      omega
    rw [hread i, if_pos ⟨by omega, hlt⟩, haddress, storedByte_linear v (targetBlock_lt t) hroom, hstore]

/-- Settles O52: block by block, what is in HB is what is stored at the linear addresses from `address` on. -/
theorem readDeliversStoredBytes : Obligations.ReadDeliversStoredBytes := by
  intro s u address length es v v' hv hu hphase hresult htrace hserves hok
  have hstart : ReadStored address.toNat v (startTransfer .read address length s) v :=
    ⟨rfl, fun i hi => absurd hi (Nat.not_lt_zero i)⟩
  have ⟨⟨_, _, _, hm⟩, _⟩ := hv
  have hkept := readStored_kept (address := address.toNat) (s := startTransfer .read address length s) hm rfl v
  obtain ⟨t, rfl, ⟨hstore, hbytes⟩, hmoved⟩ :=
    stored_at_end hv (.inl rfl) hstart hkept hu hphase hresult htrace hserves hok
  rw [hmoved] at hbytes
  exact ⟨hstore, hbytes⟩

/-! ### WRITE -/

/-- The bytes moved so far are stored at their linear addresses, every other stored byte is as it was, and so is HB. -/
def WriteStored (address : Nat) (s : State) (v : Volume) (t : State) (w : Volume) : Prop :=
  t.hb = s.hb ∧ ∀ d b p, p < 256 → (w.store d b).toList[p]? =
    if b < 256 ∧ address ≤ linear d b p ∧ linear d b p < address + t.transferred.toNat then
      some (hostByte s (linear d b p - address))
    else (v.store d b).toList[p]?

theorem writeStored_kept {address : Nat} {s : State} (hm : s.cfg.opc.Injective) (hop : s.op = .write) (v : Volume) :
    KeptByIterations address s (WriteStored address s v) := by
  refine ⟨fun {t u seeks back er data w w'} hsame hmore htrack hstored hi hserves hok => ?_⟩
  obtain ⟨hhb, hbytes⟩ := hstored
  obtain ⟨hd, hb, hhb', hmerged, hothers⟩ :=
    hi.device_write (hsame.cfg.symm ▸ hm) (hsame.op.trans hop) htrack.device hserves hok
  refine ⟨⟨hd, hb⟩, hhb'.trans hhb, fun d b p hp => ?_⟩
  have hnext := htrack.next_target hmore
  have hlow := targetBlock_lt t
  have hroom : startCursor t + iterationBytes t ≤ 256 := by
    have := startCursor_lt t
    rw [iterationBytes]
    omega
  rw [hi.moved]
  by_cases htarget : (d, b) = (targetDrum t, targetBlock t)
  · obtain ⟨rfl, rfl⟩ := Prod.mk.inj htarget
    rw [hmerged p hp, hbytes _ _ p hp, hostByte_congr hhb hsame.hbFill]
    unfold linear at hnext ⊢
    by_cases hnew : startCursor t ≤ p ∧ p < startCursor t + iterationBytes t
    · have hbyte : t.transferred.toNat + (p - startCursor t) =
          targetDrum t * 2 ^ 16 + targetBlock t * 2 ^ 8 + p - address := by omega
      rw [if_pos hnew, if_pos (by omega), hbyte]
    · rw [if_neg hnew]
      exact if_congr (by omega) rfl rfl
  · rw [hothers d b htarget, hbytes d b p hp]
    unfold linear at hnext ⊢
    rw [Prod.mk.injEq] at htarget
    exact if_congr (by omega) rfl rfl

/-- Settles O53: block by block, the bytes of HB are stored at the linear addresses from `address` on. -/
theorem writeStoresExactlyItsBytes : Obligations.WriteStoresExactlyItsBytes := by
  intro s u address length es v v' hv hu hphase hresult htrace hserves hok
  have hstart : WriteStored address.toNat (startTransfer .write address length s) v
      (startTransfer .write address length s) v :=
    ⟨rfl, fun d b p _ => (if_neg fun ⟨_, hlow, hhigh⟩ => absurd hhigh (Nat.not_lt.2 hlow)).symm⟩
  have ⟨⟨_, _, _, hm⟩, _⟩ := hv
  have hkept := writeStored_kept (address := address.toNat) (s := startTransfer .write address length s) hm rfl v
  obtain ⟨t, rfl, ⟨_, hbytes⟩, hmoved⟩ :=
    stored_at_end hv (.inr rfl) hstart hkept hu hphase hresult htrace hserves hok
  rw [hmoved] at hbytes
  exact hbytes

end Sys2Proof.Machine
end

section
/-! PROOF. O54: a READ of the range of a WRITE (95_test_vectors.md S3), from what WRITE stores (O53) and what READ
delivers (O52). The two calls see one OPC, since no transfer changes the configuration. -/

namespace Sys2Proof.Machine

/-- No update of XFER writes the configuration. -/
theorem cfg_keptByUpdates (c : Config) : KeptByUpdates (·.cfg = c) where
  submit _ _ h := h
  enterFault h := h
  endOperation _ h := h
  cursorAtOffset h := h
  cursorAtZero h := h
  rollOver h := h
  nextBlock h := h
  clearFirst h := h
  copyByte h _ ht := by
    rcases copyByte_cases ht with ⟨_, _, _, rfl⟩ | ⟨_, rfl⟩ | ⟨_, rfl⟩ <;> exact h

theorem xfer_cfg {dir : HostOp} {address length : Word} {s u : State} (h : xfer dir address length s = .next u) :
    u.cfg = s.cfg :=
  xfer_keeps (cfg_keptByUpdates s.cfg) rfl h

/-- O53 at one byte: where a WRITE returned OK, the byte `i` of the caller's buffer is stored `i` bytes past `address`. -/
theorem storedByte_of_write {s u : State} {address length : Word} {es : List Exchange} {v v' : Volume}
    (hv : s.cfg.Valid) (hu : xfer .write address length s = .next u) (hphase : u.phase = .idle)
    (hresult : u.result = .ok) (htrace : u.trace = s.trace ++ es) (hserves : Volume.serves s.cfg.opc v es v')
    (hok : allSucceeded es) {i : Nat} (hi : i < length.toNat) :
    storedByte v' (address.toNat + i) = some (hostByte s i) := by
  have hstored := writeStoresExactlyItsBytes s u address length es v v' hv hu hphase hresult htrace hserves hok
    ((address.toNat + i) / 2 ^ 16) ((address.toNat + i) / 2 ^ 8 % 2 ^ 8) ((address.toNat + i) % 2 ^ 8) (by omega)
  have hlinear : (address.toNat + i) / 2 ^ 16 * 2 ^ 16 + (address.toNat + i) / 2 ^ 8 % 2 ^ 8 * 2 ^ 8 +
      (address.toNat + i) % 2 ^ 8 = address.toNat + i := by omega
  rw [hlinear, if_pos ⟨by omega, by omega, by omega⟩, Nat.add_sub_cancel_left] at hstored
  exact hstored

/-- Settles O54: READ delivers the stored bytes, and those of the range are the bytes written. -/
theorem readAfterWriteReturnsTheBytes : Obligations.ReadAfterWriteReturnsTheBytes := by
  intro s u u' w address length es es' v v' v'' hv hwrite hphase hresult htrace hserves hok hbetween hread hphase'
    hresult' htrace' hserves' hok' i hi
  have hsame : u'.cfg = u.cfg := by rw [hbetween]
  have hcfg : u'.cfg = s.cfg := hsame.trans (xfer_cfg hwrite)
  obtain ⟨_, hdelivered⟩ := readDeliversStoredBytes u' w address length es' v' v'' (hcfg.symm ▸ hv) hread hphase'
    hresult' htrace' (hcfg.symm ▸ hserves') hok'
  exact (hdelivered i hi).trans (storedByte_of_write hv hwrite hphase hresult htrace hserves hok hi)

end Sys2Proof.Machine
end

section
/-! PROOF. O55: the witness device RD of 92_eei_decisions.md D21 meets DA1 to DA6 (44_device_primitive.md R206). A command
it refuses has a negative status, of which the assumptions say nothing (R208); one it accepts does what they ask. -/

namespace Sys2Proof.Machine

/-! ### The blocks of RD -/

/-- RD takes a whole buffer as it is. -/
theorem dataOfBuffer_filledBuffer (data : BlockData) : dataOfBuffer (filledBuffer data) = data := by
  ext i hi
  simp [dataOfBuffer, memRead_filledBuffer data hi]

/-- After a store RD holds the new block there, and every other block as before. -/
theorem witnessBlock_store (d : WitnessDevice) (place : Nat × Nat) (data : BlockData) (drum block : Nat) :
    witnessBlock { d with store := (place, data) :: d.store } drum block =
      if (drum, block) = place then data else witnessBlock d drum block := by
  unfold witnessBlock
  by_cases h : (drum, block) = place
  · simp [h]
  · have hmiss : (place == (drum, block)) = false := by simpa using Ne.symm h
    simp [hmiss, h]

/-! ### Submit on RD -/

theorem witnessSubmit_of_accepted {m : OpcMap} {w : Word} {k : OpKind} {a : BitVec 4} {b : BitVec 22}
    (hw : decodeCmd m w = some (k, a, b)) (sent : Option Memory) {d : WitnessDevice} (hk : k ∉ d.reject) :
    witnessSubmit m w sent d =
      (⟨0, (witnessAccept k a.toNat b.toNat sent d).1⟩,
        { (witnessAccept k a.toNat b.toNat sent d).2 with trace := d.trace ++ [w] }) := by
  simp [witnessSubmit, hw, hk]

/-- A reserved or rejected kind has status -1. -/
theorem witnessSubmit_status_of_refused {m : OpcMap} {w : Word} (sent : Option Memory) {d : WitnessDevice}
    (h : ∀ k a b, decodeCmd m w = some (k, a, b) → k ∈ d.reject) : (witnessSubmit m w sent d).1.status = -1 := by
  unfold witnessSubmit
  split
  · rfl
  · next k a b hw => rw [if_pos (h k a b hw)]

/-- Of a failed command the assumptions ask nothing (R208). -/
theorem meets_of_failed {m : OpcMap} {e : Exchange} (v v' : Volume) (h : statusFailed e.status = true) :
    Volume.meets m v e v' := fun hok => nomatch h.symm.trans hok

/-- What RD does to a command it accepts is what DA1 to DA6 ask, kind by kind. -/
theorem meets_of_accepted {m : OpcMap} {w : Word} {k : OpKind} {a : BitVec 4} {b : BitVec 22}
    (hw : decodeCmd m w = some (k, a, b)) {sent : Option Memory} (hsent : k = .diskRead → sent.isSome)
    (d : WitnessDevice) (status : Word) (words : List Word) :
    Volume.meets m (witnessVolume d)
      ⟨w, sent, status, returnedBuffer sent ⟨status, (witnessAccept k a.toNat b.toNat sent d).1⟩⟩
      (witnessVolume { (witnessAccept k a.toNat b.toNat sent d).2 with trace := words }) := by
  intro _
  rw [hw]
  cases k with
  | mount => rfl
  | unmount => rfl
  | formatDrum => trivial
  | seekDrum => exact ⟨rfl, rfl, rfl⟩
  | seekBlock => exact ⟨rfl, rfl, rfl⟩
  | diskRead =>
    obtain ⟨buffer, rfl⟩ := Option.isSome_iff_exists.1 (hsent rfl)
    exact ⟨rfl, rfl, rfl, rfl⟩
  | diskWrite =>
    refine ⟨fun data hdata => ?_, fun drum block hother => ?_, rfl, rfl⟩
    · obtain rfl : sent = some (filledBuffer data) := hdata
      exact (witnessBlock_store d _ _ _ _).trans ((if_pos rfl).trans (dataOfBuffer_filledBuffer data))
    · exact (witnessBlock_store d _ _ _ _).trans (if_neg hother)

/-- Settles O55: RD either accepts the word's command, or refuses it with a negative status. -/
theorem witnessDeviceMeetsTheAssumptions : Obligations.WitnessDeviceMeetsTheAssumptions := by
  intro m d w sent hbuffer
  by_cases haccept : ∃ k a b, decodeCmd m w = some (k, a, b) ∧ k ∉ d.reject
  · obtain ⟨k, a, b, hw, hk⟩ := haccept
    rw [witnessSubmit_of_accepted hw sent hk]
    exact meets_of_accepted hw (fun h => hbuffer a b (h ▸ hw)) d 0 _
  · have hrefused : (witnessSubmit m w sent d).1.status = -1 :=
      witnessSubmit_status_of_refused sent fun k a b hw => by_contra fun hk => haccept ⟨k, a, b, hw, hk⟩
    exact meets_of_failed _ _ ((congrArg statusFailed hrefused).trans (by decide))

end Sys2Proof.Machine
end

section
/-! PROOF. O31: the variant CHECK_STATUS_IN_LOOP = true of 93 U2, in which a command of the loop that the device reports
as failed raises DeviceCommandFailure (60_exceptions.md R224, R226). -/

namespace Sys2Proof.Machine

/-- In the variant, a command of the loop whose parameters fit and whose coming status is negative is one exchange and
then the raise, whatever phase was to follow. -/
theorem issueInLoop_of_failed {k : OpKind} {a b : Word} {p : Phase} {s : State} {d : Answer} {rest : List Answer}
    (hc : s.cfg.checkStatusInLoop = true) (ha : a.toNat < 16) (hb : b.toNat < 2 ^ 22) (hans : s.answers = d :: rest)
    (hneg : d.status.toInt < 0) :
    issueInLoop k a b p s =
      endOperation .deviceCommandFailure
        (submit (fieldsWord (s.cfg.opc.code k) (a.setWidth 4) (b.setWidth 22)) (bufferArg k s) s) := by
  have hfailed (w : Word) : submitFailed w (bufferArg k s) s = true := (submitFailed_iff_of_answers hans w _).2 hneg
  simp only [issueInLoop, hc, if_true, issue, encodeWord_of_fits s.cfg.opc k ha hb, hfailed]

/-- Each of the five phases that always submit is one command of the loop; a drum below 16 and every block fit their
parameters (43_io_sequencer.md R163, R164, R167, R171, R172). -/
theorem step_eq_issueInLoop {s : State} (hf : s.fault = false)
    (hp : s.phase ∈ [Phase.seekDrum, .seekBlock, .dread, .wbSeek, .wbWrite]) (hd : s.drum.toNat < 16) :
    ∃ (k : OpKind) (a b : Word) (p : Phase),
      a.toNat < 16 ∧ b.toNat < 2 ^ 22 ∧ step s = .next (issueInLoop k a b p s) := by
  have hdrum : (drumParam s).toNat < 16 := (drumParam_toNat s).symm ▸ hd
  have hzero : (0 : Word).toNat < 16 := by decide
  simp only [List.mem_cons, List.not_mem_nil, or_false] at hp
  rcases hp with hp | hp | hp | hp | hp
  · exact ⟨_, _, _, _, hdrum, by decide, step_seekDrum hf hp⟩
  · exact ⟨_, _, _, _, hzero, blockParam_fits s, step_seekBlock hf hp⟩
  · exact ⟨_, _, _, _, hdrum, blockParam_fits s, step_dread hf hp⟩
  · exact ⟨_, _, _, _, hzero, previousBlockParam_fits s, step_wbSeek hf hp⟩
  · exact ⟨_, _, _, _, hdrum, blockParam_fits s, step_wbWrite hf hp⟩

/-- Settles O31: the step is one command of the loop, and its status is the coming negative one. -/
theorem checkedVariantRaisesDeviceCommandFailure : Obligations.CheckedVariantRaisesDeviceCommandFailure := by
  intro s t d rest hf hc hp hd hans hneg hstep
  obtain ⟨k, a, b, p, ha, hb, hissue⟩ := step_eq_issueInLoop hf hp hd
  rw [hissue, issueInLoop_of_failed hc ha hb hans hneg] at hstep
  cases hstep
  exact ⟨rfl, rfl, by simp⟩

end Sys2Proof.Machine
end

section
/-! PROOF. O33: what reset leaves (70_reset_and_hazards.md R250, 10_state.md R43, R38), and that no step leaves
FAULT (60_exceptions.md R229). -/

namespace Sys2Proof.Machine

/-- A buffer that lists no byte holds no value (R38). -/
theorem memRead_nil (i : Nat) : memRead [] i = none := rfl

/-- The step of a halted block is the stop `halted`, never a next state. -/
theorem step_ne_next_of_halted {s : State} (h : isHalted s = true) (t : State) : step s ≠ .next t := by
  rw [step_of_halted h]
  nofun

/-- Settles O33: the registers and the empty BB are those of `State.reset`, and a block in the FAULT phase has halted. -/
theorem resetStateAndNoExitFromFault : Obligations.ResetStateAndNoExitFromFault := by
  refine ⟨rfl, rfl, rfl, rfl, memRead_nil, fun s t hp => ?_⟩
  exact step_ne_next_of_halted (isHalted_of_fault_phase hp) t

end Sys2Proof.Machine
end
